-- ==== Sys2Proof/Word.lean ====
section
/-! DEFINITION. Bytes, and a table of a fixed number of like things (guide: "a fixed number of like things"). -/

namespace Sys2Proof

/-- A byte as the console ports, the yard line and the two memory buses carry it. -/
abbrev Byte := BitVec 8

/-- A counter that counts modulo 2^32 (00, section 4.1: meter counters). -/
abbrev Word32 := BitVec 32

/-- Exactly `n` like things, numbered from 0: a station table, a set of stage records, the lines of a cache.
The list is plain data; its length is part of the value. -/
structure Table (n : Nat) (α : Type) where
  cells : List α
  size_eq : cells.length = n
deriving DecidableEq, Repr

/-- `n` copies of one value. -/
def Table.replicate (n : Nat) {α : Type} (x : α) : Table n α := ⟨List.replicate n x, by simp⟩

/-- Entry `i`, or nothing beyond the end. -/
def Table.get {n : Nat} {α : Type} (t : Table n α) (i : Nat) : Option α := t.cells[i]?

/-- Change entry `i`; a number beyond the end changes nothing. -/
def Table.modify {n : Nat} {α : Type} (t : Table n α) (i : Nat) (f : α → α) : Table n α :=
  ⟨t.cells.modify i f, by rw [List.length_modify]; exact t.size_eq⟩

/-- Replace entry `i`; a number beyond the end changes nothing. -/
def Table.set {n : Nat} {α : Type} (t : Table n α) (i : Nat) (x : α) : Table n α := t.modify i fun _ => x

/-- Change every entry alike. -/
def Table.map {n : Nat} {α β : Type} (t : Table n α) (f : α → β) : Table n β :=
  ⟨t.cells.map f, by rw [List.length_map]; exact t.size_eq⟩

/-- Change every entry by its number. -/
def Table.mapIdx {n : Nat} {α β : Type} (t : Table n α) (f : Nat → α → β) : Table n β :=
  ⟨t.cells.zipIdx.map fun x => f x.2 x.1, by rw [List.length_map, List.length_zipIdx]; exact t.size_eq⟩

end Sys2Proof
end

