-- ==== Sys2Proof/Syntax.lean ====
section
/-! DEFINITION. The commands: one constructor per row of spec/opcode_table.json, with the row's operands. -/

namespace Sys2Proof

/-- The two console ports (01, section 1.1). -/
inductive Port where
  | yard
  | office
deriving DecidableEq, Repr

/-- A write to one of the two memories that a hard reset cut short: the bytes that got in (R199). -/
structure TornWrite where
  toTally : Bool
  address : Nat
  bytes : List Byte
deriving DecidableEq, Repr

/-- What the part's receiver hears of one frame on the yard line: bytes as they stand on the line, from the first byte
after the last frame's end, and, for `framingError`, a framing error after them (R45, R47). -/
inductive LineBytes where
  | bytes (raw : List Byte)
  | framingError (raw : List Byte)
deriving DecidableEq, Repr

/-- Line activity that no frame reports: for how many 1 ms intervals the line was busy, and whether a byte or framing
error came within the last 2 ms (R65). -/
structure LineActivity where
  busyMs : Nat
  busyNow : Bool
deriving DecidableEq, Repr

/-- One constructor per row of the opcode table. A request's operand is the port on which it is judged: its tag and
payload stand in the request in progress of that port (R5). -/
inductive Instr where
  /-- HARD_RESET, R199. -/
  | hardReset (torn : Option TornWrite)
  /-- PLAN_LOADED, R199. -/
  | planLoaded
  /-- SOFT_RESET, R202. -/
  | softReset
  /-- TIME_BASE_STEP, R30. -/
  | timeBaseStep
  /-- CLOCK_INCREMENT, R23. -/
  | clockIncrement
  /-- SWEEP_DUE, R28. -/
  | sweepDue
  /-- WHOLE_SECOND, R88. -/
  | wholeSecond
  /-- CRANK_TIMER_EXPIRY, R77. -/
  | crankTimerExpiry (set : Nat)
  /-- CRANK_REST_EXPIRY, R77. -/
  | crankRestExpiry (set : Nat)
  /-- WARM_UP_EXPIRY, R76. -/
  | warmUpExpiry (set : Nat)
  /-- COOL_DOWN_EXPIRY, R80. -/
  | coolDownExpiry (set : Nat)
  /-- SETTLE_EXPIRY, R110. -/
  | settleExpiry (channel : Nat)
  /-- PREPARE_EXPIRY, R130. -/
  | prepareExpiry (stage : Nat)
  /-- CONFIRM_EXPIRY, R134. -/
  | confirmExpiry (stage : Nat)
  /-- DEAD_TIME_EXPIRY, R133. -/
  | deadTimeExpiry (stage : Nat)
  /-- FRAME_COMPLETE, R2: the bytes received on the port since its last event, the second check byte last. -/
  | frameComplete (port : Port) (bytes : List Byte)
  /-- FRAME_GAP, R2: the bytes received before the gap. -/
  | frameGap (port : Port) (bytes : List Byte)
  /-- FRAME_TRANSMITTED, R12. -/
  | frameTransmitted (port : Port)
  /-- UNKNOWN_REQUEST, R6. -/
  | unknownRequest (port : Port)
  /-- IDENTIFY, R18. `progress`: how many sections the loader has decided so far; it matters while LOADING only. -/
  | identify (port : Port) (progress : Nat)
  /-- RESET_PART, R202. -/
  | resetPart (port : Port)
  /-- SOFT_RESET_FLUSH_STEP, R175. -/
  | softResetFlushStep
  /-- WRITE_PLAN, R203. -/
  | writePlan (port : Port)
  /-- SET_CLOCK, R20. -/
  | setClock (port : Port)
  /-- START_CLOCK, R21. -/
  | startClock (port : Port)
  /-- STOP_CLOCK, R22. -/
  | stopClock (port : Port)
  /-- READ_CLOCK, R25. -/
  | readClock (port : Port)
  /-- WRITE_TARIFF, R26. -/
  | writeTariff (port : Port)
  /-- READ_TARIFF, R27. -/
  | readTariff (port : Port)
  /-- SET_SWEEP, R29. -/
  | setSweep (port : Port)
  /-- WRITE_WINDOW, R41. -/
  | writeWindow (port : Port)
  /-- WINDOW_WRITE_BACK_STEP, R42. -/
  | windowWriteBackStep
  /-- READ_WINDOW, R43. -/
  | readWindow (port : Port)
  /-- ENROL_STATION, R53. -/
  | enrolStation (port : Port)
  /-- REMOVE_STATION, R54. -/
  | removeStation (port : Port)
  /-- READ_STATION, R55. -/
  | readStation (port : Port)
  /-- LEASE_SET, R93. -/
  | leaseSet (port : Port)
  /-- RELEASE_SET, R94. -/
  | releaseSet (port : Port)
  /-- START_SET, R75. -/
  | startSet (port : Port)
  /-- STOP_SET, R79. -/
  | stopSet (port : Port)
  /-- CLEAR_FAULT, R82. -/
  | clearFault (port : Port)
  /-- ACK_ALARMS, R85. -/
  | ackAlarms (port : Port)
  /-- SET_MARKS, R86. -/
  | setMarks (port : Port)
  /-- READ_SET, R95. -/
  | readSet (port : Port)
  /-- OPEN_DELIVERY, R99. -/
  | openDelivery (port : Port)
  /-- HOLD_DELIVERY, R104. -/
  | holdDelivery (port : Port)
  /-- RESUME_DELIVERY, R105. -/
  | resumeDelivery (port : Port)
  /-- FINISH_DELIVERY, R106. -/
  | finishDelivery (port : Port)
  /-- CANCEL_DELIVERY, R107. -/
  | cancelDelivery (port : Port)
  /-- READ_CHANNEL, R117. -/
  | readChannel (port : Port)
  /-- TAKE_DELIVERY_RECORD, R115. -/
  | takeDeliveryRecord (port : Port)
  /-- ASSIGN_INPUT, R123. -/
  | assignInput (port : Port)
  /-- SET_STAGE, R124. -/
  | setStage (port : Port)
  /-- CHANGE_OVER, R126. -/
  | changeOver (port : Port)
  /-- ABORT_CHANGEOVER, R136. -/
  | abortChangeover (port : Port)
  /-- RESTORE_STAGE, R127. -/
  | restoreStage (port : Port)
  /-- READ_STAGE, R140. -/
  | readStage (port : Port)
  /-- INSTALL_MAP, R154. -/
  | installMap (port : Port)
  /-- CLEAR_MAP_ALL, R155. -/
  | clearMapAll (port : Port)
  /-- CLEAR_MAP_UNPINNED, R155. -/
  | clearMapUnpinned (port : Port)
  /-- CLEAR_MAP_CIRCUIT, R155. -/
  | clearMapCircuit (port : Port)
  /-- READ_MISS, R153. -/
  | readMiss (port : Port)
  /-- READ_MAP, R156. -/
  | readMap (port : Port)
  /-- READ_CIRCUIT, R157. -/
  | readCircuit (port : Port)
  /-- STATEMENT, R172. -/
  | statement (port : Port)
  /-- PERFORM_STATEMENT, R172. -/
  | performStatement
  /-- REWRITE_ACCOUNT, R185. -/
  | rewriteAccount (port : Port)
  /-- PERFORM_REWRITE, R186. -/
  | performRewrite
  /-- FLUSH_TOTALS, R173. -/
  | flushTotals (port : Port)
  /-- FLUSH_STEP, R173. -/
  | flushStep
  /-- INIT_TALLY, R187. -/
  | initTally (port : Port)
  /-- INIT_TALLY_STEP, R188. -/
  | initTallyStep
  /-- READ_TALLY_FAULT, R183. -/
  | readTallyFault (port : Port)
  /-- CLOSE_PERIOD, R193. -/
  | closePeriod (port : Port)
  /-- TAKE_HIRE_RECORD, R197. -/
  | takeHireRecord (port : Port)
  /-- READ_PERIOD, R198. -/
  | readPeriod (port : Port)
  /-- ACCOUNT_UPDATE, R166. -/
  | accountUpdate
  /-- LINE_QUIET, R45. -/
  | lineQuiet
  /-- REPLY_ACCEPTED, R62: the bytes of the reply as they stand on the line. -/
  | replyAccepted (raw : List Byte)
  /-- TRANSACTION_FAULT, R63: for how many ms the line was busy with the frame, and the frame. -/
  | transactionFault (busyMs : Nat) (heard : LineBytes)
  /-- SILENT, R50. -/
  | silent (activity : LineActivity)
  /-- TOO_LONG, R50. -/
  | tooLong (activity : LineActivity)
  /-- FRAME_OUTSIDE_TRANSACTION, R47. -/
  | frameOutsideTransaction (raw : List Byte)
  /-- LINE_JAMMED, R65. -/
  | lineJammed
  /-- LINE_CLEAR, R66. -/
  | lineClear
  /-- FRAMING_ERROR, R1: the bytes received before the byte with the bad stop bit. -/
  | framingError (port : Port) (bytes : List Byte)
  /-- FRAME_LENGTH_BAD, R2: the bytes received, the bad length byte last. -/
  | frameLengthBad (port : Port) (bytes : List Byte)
  /-- CLOSING_MARK_SENT, R49. -/
  | closingMarkSent
  /-- BAD_FRAME_OUTSIDE_TRANSACTION, R47. -/
  | badFrameOutsideTransaction (busyMs : Nat) (heard : LineBytes)
deriving DecidableEq, Repr

end Sys2Proof
end

