-- ==== Sys2Proof/Config.lean ====
section
/-! DEFINITION. What the VH460 fixes: capacities, times in tenths of a second, identification. No value here is
left open by the spec, so no constant is opaque. -/

namespace Sys2Proof.Config

/-- R4: complete frames an input buffer holds. -/
def bufferCap : Nat := 2
/-- R13: notices a queue holds. -/
def noticeCap : Nat := 16
/-- R57: entries of the command queue. -/
def queueCap : Nat := 8
/-- R57: entries of the command queue that may be other than SAFETY. -/
def plainCap : Nat := 6
/-- R113, R115: records of the delivery log. -/
def logCap : Nat := 32
/-- R196: lines of the hire queue. -/
def hireCap : Nat := 24
/-- R184: accounts of the quarantine list. -/
def quarantineCap : Nat := 8
/-- R165: operations the Tally controller may have outstanding. -/
def workCap : Nat := 12
/-- R64: the failure run at which a station is LOST. -/
def lostRun : Nat := 6
/-- R63: attempts of one command. -/
def attemptCap : Nat := 3
/-- R60: command transactions between two polls. -/
def pollEvery : Nat := 3
/-- R61: LOST stations are polled when the round count is 7. -/
def lostRound : Nat := 7

/-- R30: sequence timers, in tenths of a second. -/
def crankTenths : Nat := 150
def crankRestTenths : Nat := 100
def settleTenths : Nat := 600
def prepareTenths : Nat := 1800
def confirmTenths : Nat := 20
/-- R71: times of a set with no lease, in seconds. -/
def warmUpDefault : Nat := 120
def coolDownDefault : Nat := 300

/-- R19: sweep settings after a hard reset. -/
def intervalDefault : Nat := 300
def limitDefault : Nat := 250000
/-- R141: dead time after a hard reset, in seconds. -/
def deadTimeDefault : Nat := 3

/-- 00, section 4.2: the last second of a day, the last day. -/
def lastSecond : Nat := 86399
def lastDay : Nat := 255

/-- R18: identification. -/
def vendorCode : Nat := 0x41B7
def partCode : Nat := 460
def siliconRevision : Nat := 2

/-- 10, section 10.2: bytes of a record, and R176: bytes of a bank. -/
def recordBytes : Nat := 54
def bankBytes : Nat := 27648
/-- 12, section 12.1: the greatest length of an image, header included. -/
def imageBytes : Nat := 1005

/-- How many messages between blocks one step may handle before it leaves the rest to the next step
(DESIGN CHOICE, log entry 10). -/
def tellFuel : Nat := 4096

end Sys2Proof.Config
end

