-- ==== Sys2Proof/Machine/State.lean ====
section
/-! DEFINITION. The state of the VH460, block by block (00, section 2.1), as plain data; its reset value; the reasons a
command can stop. A field that the spec names and that another field already fixes is computed from it (Ops, Line,
Stages, Circuits), so that every register has one home. -/

namespace Sys2Proof.Machine

/-! ## Common -/

/-- A stamp: day and second of the festival clock (R25). -/
structure Stamp where
  day : Nat
  second : Nat
deriving DecidableEq, Repr

/-- Day 0, second 0. -/
def Stamp.zero : Stamp := ⟨0, 0⟩

/-- Two serial memories (plan, tally): the bytes that are not 0, at strictly rising addresses. -/
abbrev Memory := List Host.Cell

/-! ## Port handlers (01) -/

/-- A complete frame in an input buffer (R4): kind, tag, payload. -/
structure Frame where
  kind : Byte
  tag : Byte
  payload : List Byte
deriving DecidableEq, Repr

/-- R2: hunting, or receiving with the bytes after the start byte that have come so far. -/
inductive Receiver where
  | hunting
  | receiving (got : List Byte)
deriving DecidableEq, Repr

/-- R10: refusal codes. -/
inductive Refuse where
  | format | unknown | role | denied | range | state | busy | full | empty | absent | conflict | tooLate | notLeased
  | noHeadroom | loading
deriving DecidableEq, Repr

/-- R9: the three kinds of reply; `data` is what follows the status byte. -/
inductive Reply where
  | done (data : List Byte)
  | accepted
  | refused (code : Refuse) (field : Nat) (window : Nat)
deriving DecidableEq, Repr

/-- R15: the kinds of notice. -/
inductive NoticeKind where
  | started | clockEnded | deliveryClosed
  | setState | alarmChange | fuelLow | fuelLowClear | unexplainedRise | stationLost | stationBack | lineJammed | lineClear
  | deliveryHalted | changeoverEnded | noAlternate | stageState
  | logFull | mapMiss | implausible | tallyFault | periodClosed
deriving DecidableEq, Repr

/-- A posted notice: kind, stamp of posting, notice data (section 1.6). -/
structure Notice where
  kind : NoticeKind
  stamp : Stamp
  data : List Byte
deriving DecidableEq, Repr

/-- A frame on its way out of a transmitter (R12): kind, tag and payload as they stand on the line, and whether it is
the port's reply. -/
structure Sending where
  frame : Frame
  isReply : Bool
deriving DecidableEq, Repr

/-- R5: a request in progress: the frame that was taken, and whether it has been judged (log entry 7). -/
structure InProgress extends Frame where
  judged : Bool
deriving DecidableEq, Repr

/-- The state of one port handler (01; R16 gives its reset value). -/
structure PortState where
  rx : Receiver
  buffer : List Frame
  inProgress : Option InProgress
  waiting : Option Reply
  tx : Option Sending
  notices : List Notice
  inputDiscarded : Bool
  noticesDropped : Bool
deriving DecidableEq, Repr

/-- R16. -/
def PortState.reset : PortState := ⟨.hunting, [], none, none, none, [], false, false⟩

/-! ## Clock unit (02) -/

/-- R19: clock states. -/
inductive ClockState where
  | unset | stopped | running | ended
deriving DecidableEq, Repr

/-- R26: an entry of the tariff calendar. -/
structure TariffEntry where
  start : Nat
  band : Nat
deriving DecidableEq, Repr

/-- R19. `phase` stands at 10 or more while an increment is due and not yet taken (log entry 3). -/
structure Clock where
  state : ClockState
  day : Nat
  second : Nat
  phase : Nat
  tariff : List TariffEntry
  interval : Nat
  limit : Nat
  elapsed : Nat
deriving DecidableEq, Repr

/-- R19. -/
def Clock.reset : Clock := ⟨.unset, 0, 0, 0, [], Config.intervalDefault, Config.limitDefault, 0⟩

/-! ## Window check (03) -/

/-- R36: total modes. -/
inductive TotalMode where
  | held | through | direct
deriving DecidableEq, Repr

/-- 00, section 4.5: roles. -/
inductive Role where
  | crew | office | engine | auto
deriving DecidableEq, Repr

/-- R31: an account window. -/
structure AccountWindow where
  enabled : Bool
  base : BitVec 10
  mask : BitVec 10
  crew : Bool
  office : Bool
  engine : Bool
  deny : Bool
  mode : TotalMode
  tag : BitVec 2
deriving DecidableEq, Repr

/-- R37: a set window. -/
structure SetWindow where
  enabled : Bool
  base : BitVec 4
  mask : BitVec 4
  crew : Bool
  office : Bool
  auto : Bool
  deny : Bool
deriving DecidableEq, Repr

/-- The six windows. -/
structure Windows where
  account : Table 4 AccountWindow
  sets : Table 2 SetWindow
deriving DecidableEq, Repr

/-- R44. -/
def AccountWindow.reset : AccountWindow := ⟨false, 0, 0, false, false, false, false, .through, 0⟩
def SetWindow.reset : SetWindow := ⟨false, 0, 0, false, false, false, false⟩
def Windows.reset : Windows := ⟨Table.replicate 4 .reset, Table.replicate 2 .reset⟩

/-! ## Line master (04) -/

/-- 04: station classes. -/
inductive StationClass where
  | set | bowser | board | meter
deriving DecidableEq, Repr

/-- R52: station states. -/
inductive StationState where
  | unknown | answering | lost
deriving DecidableEq, Repr

/-- R50: fault kinds. -/
inductive LineFault where
  | silent | badCheck | wrongSource | tooLong | aborted | nak
deriving DecidableEq, Repr

/-- R52: a used entry of the station table. -/
structure Station where
  address : Nat
  cls : StationClass
  object : Nat
  stage : Nat
  state : StationState
  run : Nat
  lastGood : Option Stamp
  lastFault : Option LineFault
deriving DecidableEq, Repr

/-- The two inputs of a transfer board (07). -/
inductive Input where
  | a | b
deriving DecidableEq, Repr

/-- 04, section 4.3: the commands. -/
inductive Order where
  | startEngine | stopEngine | clearShutdown
  | pumpRun | pumpHalt
  | openInput (i : Input)
  | closeInput (i : Input)
  | readCounters
deriving DecidableEq, Repr

/-- R56: classes of commands. -/
inductive Rank where
  | safety | sequence | routine
deriving DecidableEq, Repr

/-- R56: a command in the queue or on the waiting list. `object` names its station within the order's class; `serial`
is the model's own name for this one command (log entry 13). `removed`: its station was removed while it waited for
room (R54). -/
structure Command where
  serial : Nat
  order : Order
  object : Nat
  rank : Rank
  attempts : Nat
  committed : Bool
  removed : Bool
deriving DecidableEq, Repr

/-- R59: outcomes of a command. -/
inductive CommandOutcome where
  | done | noAnswer | removed
deriving DecidableEq, Repr

/-- R48: what a transaction carries. -/
inductive Job where
  | poll
  | command (serial : Nat) (order : Order)
deriving DecidableEq, Repr

/-- R45, R48, R49: a chosen transaction waits for quiet, sends its frame, then listens. -/
inductive TxPhase where
  | chosen | sending | listening
deriving DecidableEq, Repr

/-- R48: the transaction. `void`: its station has been removed (R54). -/
structure Transaction where
  job : Job
  cls : StationClass
  object : Nat
  address : Nat
  phase : TxPhase
  void : Bool
deriving DecidableEq, Repr

/-- R47: the yard line receiver: hunting, or receiving with the body collected and whether an escape is pending. -/
inductive LineReceiver where
  | hunting
  | receiving (body : List Byte) (escaped : Bool)
deriving DecidableEq, Repr

/-- The Line master's state (04). -/
structure Line where
  stations : Table 40 (Option Station)
  queue : List Command
  waiting : List Command
  sincePoll : Nat
  pointer : Nat
  round : Nat
  jammed : Bool
  jamTimer : Nat
  quietTimer : Nat
  jammedTenths : Nat
  busy : Bool
  rx : LineReceiver
  current : Option Transaction
  nextSerial : Nat
deriving DecidableEq, Repr

/-- R67. -/
def Line.reset : Line :=
  ⟨Table.replicate 40 none, [], [], 0, 0, 0, false, 0, 0, 0, false, .hunting, none, 0⟩

/-! ## Set monitor (05) -/

/-- Section 4.4: engine codes of a SET report. -/
inductive Engine where
  | off | cranking | running | shutdown
deriving DecidableEq, Repr

/-- R84: the engine states by name. -/
inductive EngineState where
  | unknown | stopped | cranking | warming | online | cooling | faulted | lost
deriving DecidableEq, Repr

/-- 05, section 5.1: fault causes. -/
inductive FaultCause where
  | noStart | shutdown | stoppedLocally | offWhileFeeding | stopFailed
deriving DecidableEq, Repr

/-- 05, section 5.1: crank phases. -/
inductive CrankPhase where
  | crank | rest
deriving DecidableEq, Repr

/-- The engine state with what it alone carries: attempt and phase in CRANKING, the cause in FAULTED, the state left in
LOST (05, section 5.1). -/
inductive SetState where
  | unknown
  | stopped
  | cranking (attempt : Nat) (phase : CrankPhase)
  | warming
  | online
  | cooling
  | faulted (cause : FaultCause)
  | lost (previous : EngineState)
deriving DecidableEq, Repr

/-- The state's name. -/
def SetState.name : SetState → EngineState
  | .unknown => .unknown
  | .stopped => .stopped
  | .cranking _ _ => .cranking
  | .warming => .warming
  | .online => .online
  | .cooling => .cooling
  | .faulted _ => .faulted
  | .lost _ => .lost

/-- R30: the set's sequence timers; at most one runs. -/
inductive SetTimerKind where
  | crank | crankRest | warmUp | coolDown
deriving DecidableEq, Repr

/-- A running timer and the tenths of a second it has left; 0 means it has expired and its expiry is not yet taken. -/
structure SetTimer where
  kind : SetTimerKind
  left : Nat
deriving DecidableEq, Repr

/-- Section 4.4, R70: a SET report with the stamp of its acceptance. -/
structure SetReport where
  engine : Engine
  alarm : Byte
  level : Nat
  energy : Word32
  power : Nat
  stamp : Stamp
deriving DecidableEq, Repr

/-- 05, section 5.1: the counters of a lease. -/
structure Counters where
  runtime : Word32
  burned : Word32
  energy : Word32
  starts : BitVec 16
  gaps : BitVec 16
deriving DecidableEq, Repr

/-- R93: every counter 0. -/
def Counters.zero : Counters := ⟨0, 0, 0, 0, 0⟩

/-- 05, section 5.1: a lease. -/
structure Lease where
  vendor : Nat
  hire : Nat
  rating : Nat
  capacity : Nat
  declared : Nat
  warmUp : Nat
  coolDown : Nat
  stamp : Stamp
  total : Counters
  current : Counters
  measured : Option Nat
  windowBurn : Nat
  windowEnergy : Nat
deriving DecidableEq, Repr

/-- 05, section 5.1: a set record. `awaited` is the serial of the engine command whose outcome acts on the state
(log entry 13). -/
structure SetRecord where
  state : SetState
  clearPending : Bool
  startPending : Bool
  timer : Option SetTimer
  awaited : Option Nat
  report : Option SetReport
  snapshot : Byte
  latchHeld : Bool
  fuelLow : Bool
  reference : Option Nat
  lease : Option Lease
deriving DecidableEq, Repr

/-- R69: the record of a set just enrolled. -/
def SetRecord.fresh : SetRecord :=
  ⟨.unknown, false, false, none, none, none, 0, false, false, none, none⟩

/-- R86: the marks of a set. -/
structure Marks where
  low : Nat
  lowClear : Nat
  highClear : Nat
  high : Nat
deriving DecidableEq, Repr

/-- R96. -/
def Marks.reset : Marks := ⟨400, 600, 9000, 9500⟩

/-! ## Delivery unit (06) -/

/-- R98: halt causes. -/
inductive HaltCause where
  | highMark | hold | gaugeLost
deriving DecidableEq, Repr

/-- Section 4.4: a BOWSER report. -/
structure BowserReport where
  running : Bool
  count : Word32
deriving DecidableEq, Repr

/-- R98: the fields of an open delivery. `halt` is the serial of the PUMP HALT this ticket offered last (log entry 13). -/
structure Delivery where
  ticket : Nat
  supplier : Nat
  set : Nat
  ordered : Nat
  meterStart : Word32
  delivered : Word32
  startLevel : Nat
  energy : Word32
  highHalts : BitVec 8
  gaugeLost : Bool
  meterLost : Bool
  haltConfirmed : Bool
  halt : Option Nat
  opened : Stamp
deriving DecidableEq, Repr

/-- R112: outcomes of a delivery. -/
inductive DeliveryOutcome where
  | complete | short | cancelled | meterLost
deriving DecidableEq, Repr

/-- R114: a delivery record. -/
structure DeliveryRecord where
  ticket : Nat
  supplier : Nat
  channel : Nat
  set : Nat
  ordered : Nat
  delivered : Word32
  startLevel : Nat
  endLevel : Nat
  energy : Word32
  rate : Nat
  burn : Nat
  discrepancy : Int
  outcome : DeliveryOutcome
  disputed : Bool
  gaugeLost : Bool
  meterLost : Bool
  highHalts : BitVec 8
  opened : Stamp
  closed : Stamp
deriving DecidableEq, Repr

/-- R98: the states of a channel with what each carries: the settle timer's tenths left in SETTLING; the closed record
and the rank of entry in HELD-LOG (R115 releases the earliest first). -/
inductive ChannelState where
  | idle
  | armed (d : Delivery)
  | flowing (d : Delivery)
  | halted (d : Delivery) (cause : HaltCause)
  | settling (d : Delivery) (left : Nat)
  | heldLog (r : DeliveryRecord) (rank : Nat)
deriving DecidableEq, Repr

/-- R98: a channel record. -/
structure Channel where
  report : Option BowserReport
  state : ChannelState
deriving DecidableEq, Repr

/-- The Delivery unit's state (06). -/
structure Deliveries where
  channels : Table 3 Channel
  log : List DeliveryRecord
  opened : Nat
  taken : Nat
  nextHeld : Nat
deriving DecidableEq, Repr

/-- R118. -/
def Deliveries.reset : Deliveries := ⟨Table.replicate 3 ⟨none, .idle⟩, [], 0, 0, 0⟩

/-! ## Feed sequencer (07) -/

/-- Section 4.4: a BOARD report. -/
structure BoardReport where
  closedA : Bool
  closedB : Bool
  liveA : Bool
  liveB : Bool
  demand : Nat
deriving DecidableEq, Repr

/-- R119: kinds of changeover. -/
inductive ChangeKind where
  | requested | restore | fuelLow | supplyLoss
deriving DecidableEq, Repr

/-- R119: steps of a changeover. -/
inductive ChangeStep where
  | preparing | boundary | opening | dead | closing | reverting
deriving DecidableEq, Repr

/-- R128: outcomes of a changeover. -/
inductive ChangeOutcome where
  | done | reverted | aborted | abortedReversed | noHeadroom | notReady | incomingFault | boardFault | bothLost
  | closeFailed | overridden | withdrawn
deriving DecidableEq, Repr

/-- R119: how far a meter station of the list is. -/
inductive ListedState where
  | awaitingReading | awaitingBilling | ended
deriving DecidableEq, Repr

/-- R119: a meter station of the list, with the serial of its READ COUNTERS. -/
structure Listed where
  station : Nat
  serial : Nat
  state : ListedState
deriving DecidableEq, Repr

/-- R119: the context's board command: not offered in this step, offered, or ended with outcome DONE. Whether an
offered one waits for room, is queued or is committed is read from the Line master. -/
inductive BoardOrder where
  | none
  | offered (serial : Nat)
  | ended
deriving DecidableEq, Repr

/-- R30, R119: the changeover's timers; at most one runs. -/
inductive StageTimerKind where
  | prepare | confirm | dead
deriving DecidableEq, Repr

/-- A running timer and the tenths of a second it has left. -/
structure StageTimer where
  kind : StageTimerKind
  left : Nat
deriving DecidableEq, Repr

/-- R119: a changeover context. -/
structure Changeover where
  kind : ChangeKind
  source : Option Input
  target : Input
  step : ChangeStep
  rate : Option Nat
  stations : List Listed
  board : BoardOrder
  aborted : Bool
  timer : Option StageTimer
  started : Stamp
deriving DecidableEq, Repr

/-- R119: stage states; FED carries its active input, CHANGING its context. -/
inductive StageState where
  | unknown
  | dark
  | fed (input : Input)
  | conflict
  | changing (c : Changeover)
deriving DecidableEq, Repr

/-- R119: a stage record. -/
structure Stage where
  inputA : Option Nat
  inputB : Option Nat
  state : StageState
  auto : Bool
  deadTime : Nat
  report : Option BoardReport
  lost : Bool
  lossEpisode : Bool
deriving DecidableEq, Repr

/-- R141. -/
def Stage.reset : Stage := ⟨none, none, .unknown, false, Config.deadTimeDefault, none, false, false⟩

/-! ## Billing engine (08, 09) -/

/-- R149: hold causes. -/
inductive HoldCause where
  | miss | quarantine | unreadable | denied
deriving DecidableEq, Repr

/-- R143: circuit states. -/
inductive CircuitState where
  | unread
  | current
  | held (cause : HoldCause)
deriving DecidableEq, Repr

/-- R143: a circuit record. -/
structure Circuit where
  stage : Nat
  state : CircuitState
  straddled : Bool
  implausible : Bool
  base : Word32
  last : Word32
  stamp : Stamp
  cursor : Word32
  credited : BitVec 64
  rejected : BitVec 64
deriving DecidableEq, Repr

/-- R158. -/
def Circuit.reset : Circuit := ⟨0, .unread, false, false, 0, 0, .zero, 0, 0, 0⟩

/-- 08, section 8.4: a used entry of the circuit map. -/
structure MapEntry where
  circuit : Nat
  account : Nat
  levy : Bool
  pinned : Bool
deriving DecidableEq, Repr

/-- R152: a locked miss latch. -/
structure MissLatch where
  circuit : Nat
  stage : Nat
  delta : Word32
  stamp : Stamp
  more : Bool
deriving DecidableEq, Repr

/-- R163: kinds of sweep. -/
inductive SweepKind where
  | timed | closing
deriving DecidableEq, Repr

/-- R163: a sweep in progress and the circuit it is at. -/
structure Sweep where
  kind : SweepKind
  next : Nat
deriving DecidableEq, Repr

/-- R131, R164: a boundary billing request; `serial` is that of the READ COUNTERS it came from. -/
structure BoundaryRequest where
  stage : Nat
  station : Nat
  set : Option Nat
  rate : Nat
  serial : Nat
deriving DecidableEq, Repr

/-- R164: a boundary stream and the channel of the front request it is at. -/
structure Stream where
  requests : List BoundaryRequest
  next : Nat
deriving DecidableEq, Repr

/-- R160: the sources of billings. -/
inductive Source where
  | sweep
  | stream (stage : Nat)
deriving DecidableEq, Repr

/-- R160: a billing in flight. `stale`: its circuit became UNREAD meanwhile (R145). -/
structure Billing where
  source : Source
  circuit : Nat
  reading : Word32
  delta : Word32
  straddle : Bool
  stale : Bool
deriving DecidableEq, Repr

/-- R160: a source that waits for a circuit whose mark is set. -/
structure Waiter where
  source : Source
  circuit : Nat
deriving DecidableEq, Repr

/-- The Billing engine's state. -/
structure BillingEngine where
  circuits : Table 96 Circuit
  map : Table 32 (Option MapEntry)
  pointer : Nat
  miss : Option MissLatch
  sweep : Option Sweep
  closingCalled : Bool
  streams : Table 8 Stream
  waiters : List Waiter
  inFlight : List Billing
deriving DecidableEq, Repr

/-- R158, R174. -/
def BillingEngine.reset : BillingEngine :=
  ⟨Table.replicate 96 .reset, Table.replicate 32 none, 0, none, none, false, Table.replicate 8 ⟨[], 0⟩, [], []⟩

/-! ## Tally controller (09, 10) -/

/-- 10, section 10.2: four band energies. -/
structure Bands where
  b0 : Word32
  b1 : Word32
  b2 : Word32
  b3 : Word32
deriving DecidableEq, Repr

def Bands.zero : Bands := ⟨0, 0, 0, 0⟩

/-- 10, section 10.2: an account record. -/
structure AccountRecord where
  this : Bands
  last : Bands
  thisFuel : Word32
  lastFuel : Word32
  festival : BitVec 40
  period : BitVec 8
  tag : BitVec 2
  straddles : BitVec 14
deriving DecidableEq, Repr

/-- R167: a valid line of the total cache. -/
structure CacheLine where
  dirty : Bool
  account : Nat
  record : AccountRecord
deriving DecidableEq, Repr

/-- R161: an account update; `source` is the billing that sent it. -/
structure AccountUpdate where
  source : Source
  account : Nat
  delta : Word32
  fuelShare : Nat
  straddle : Bool
  tag : BitVec 2
deriving DecidableEq, Repr

/-- R42: the two passes of the window write-back. -/
inductive WritePass where
  | writeBack | invalidate
deriving DecidableEq, Repr

/-- R165: operations of the work list. `next` is the line or account the operation is at; `written` what it has
written so far; `begun` whether INIT TALLY has made its first step. -/
inductive WorkOp where
  | update (u : AccountUpdate)
  | statement (port : Port) (account : Nat)
  | rewrite (account : Nat) (record : AccountRecord)
  | flush (next written : Nat)
  | windowWriteBack (pass : WritePass) (next : Nat)
  | softFlush (next : Nat)
  | initTally (begun : Bool) (next written : Nat)
deriving DecidableEq, Repr

/-- R179: the operation of a read. -/
inductive ReadOp where
  | fill | update | statement
deriving DecidableEq, Repr

/-- R182: a locked fault latch; `uncorrectable` tells its kind. -/
structure TallyFault where
  uncorrectable : Bool
  account : Nat
  word : Nat
  op : ReadOp
  stamp : Stamp
  more : Bool
deriving DecidableEq, Repr

/-- The Tally controller's state. -/
structure Tally where
  lines : Table 64 (Option CacheLine)
  work : List WorkOp
  quarantine : List Nat
  fault : Option TallyFault
  corrected : Nat
  bank0 : Bool
  bank1 : Bool
deriving DecidableEq, Repr

/-- R174, R189, R201. -/
def Tally.reset : Tally := ⟨Table.replicate 64 none, [], [], none, 0, true, false⟩

/-! ## Period unit (11) -/

/-- R195: origin of a hire line. -/
inductive HireOrigin where
  | close | release
deriving DecidableEq, Repr

/-- R197: a hire line. -/
structure HireLine where
  set : Nat
  origin : HireOrigin
  vendor : Nat
  hire : Nat
  period : Nat
  counters : Counters
  stamp : Stamp
deriving DecidableEq, Repr

/-- R193: a close in progress. -/
structure CloseContext where
  sweeping : Bool
  counted : List Nat
deriving DecidableEq, Repr

/-- R190. -/
structure Period where
  number : Nat
  opened : Stamp
  hire : List HireLine
  close : Option CloseContext
deriving DecidableEq, Repr

/-- R190. -/
def Period.reset : Period := ⟨0, .zero, [], none⟩

/-! ## Plan loader (12) -/

/-- R200: decisions. -/
inductive Decision where
  | taken | left | bad | absent
deriving DecidableEq, Repr

/-- R203: the pending section. -/
structure PendingSection where
  kind : Nat
  accept : Nat
  total : Nat
  data : List Byte
deriving DecidableEq, Repr

/-- The Plan loader's state (12). `resetDue`: DONE of RESET PART is ready and the soft reset has not taken effect
(R17, R202). `sectionsRead`: how far the reading of the image has come while LOADING (log entry 21). -/
structure Loader where
  ready : Bool
  lastSoft : Bool
  report : Table 7 Decision
  site : Nat
  sectionsRead : Nat
  section_ : Option PendingSection
  resetDue : Bool
deriving DecidableEq, Repr

/-- R199. -/
def Loader.reset : Loader := ⟨false, false, Table.replicate 7 .absent, 0, 0, none, false⟩

/-! ## What blocks tell each other -/

/-- What one block has told another within a step (00, section 2.3), to be acted on in the order told (log entry 9). -/
inductive Told where
  /-- R84: the Set monitor tells the Feed sequencer of a change of state. -/
  | setChanged (set : Nat)
  /-- R87: fuel-low raised; `except` are stages whose supply-loss episode the same report began (R137). -/
  | fuelLowRaised (set : Nat) (except : List Nat)
  /-- R87: fuel-low cleared. -/
  | fuelLowCleared (set : Nat)
  /-- R59: a command's outcome goes to its requester. -/
  | outcome (c : Command) (o : CommandOutcome)
  /-- R120, R128: supply loss is to be judged for a FED stage. -/
  | judgeSupply (stage : Nat)
  /-- R131: a BOUNDARY step looks whether all its stations have ended. -/
  | boundaryCheck (stage : Nat)
  /-- R164: the end of a boundary request goes to the Feed sequencer. -/
  | boundaryEnded (r : BoundaryRequest)
  /-- R160: a source of billings goes on. -/
  | bill (source : Source)
deriving DecidableEq, Repr

/-! ## The state -/

/-- The whole machine: the blocks of 00, section 2.1, the two memories, and the queue of waiting commands. -/
structure State where
  yard : PortState
  office : PortState
  clock : Clock
  tenths : Nat
  windows : Windows
  line : Line
  sets : Table 12 (Option SetRecord)
  marks : Table 12 Marks
  deliveries : Deliveries
  stages : Table 8 Stage
  billing : BillingEngine
  tally : Tally
  period : Period
  loader : Loader
  planMem : Memory
  tallyMem : Memory
  planFitted : Bool
  bank0Fitted : Bool
  bank1Fitted : Bool
  told : List Told
  pending : List Instr
deriving DecidableEq, Repr

/-- The machine right after a hard reset with nothing stored in its memories (R199 and each block's own reset rule).
The memories are fitted (log entry 5). -/
def State.reset : State where
  yard := .reset
  office := .reset
  clock := .reset
  tenths := 0
  windows := .reset
  line := .reset
  sets := Table.replicate 12 none
  marks := Table.replicate 12 .reset
  deliveries := .reset
  stages := Table.replicate 8 .reset
  billing := .reset
  tally := .reset
  period := .reset
  loader := .reset
  planMem := []
  tallyMem := []
  planFitted := true
  bank0Fitted := true
  bank1Fitted := true
  told := []
  pending := []

/-- Reasons a command stops with a fault: none. The spec describes nothing that stops the part; its "faults" are states
and messages (INVENTORY.md, Faults). Safe: nothing is shut out. -/
inductive Fault where
deriving DecidableEq, Repr

/-- Reasons a command is refused by the model. -/
inductive Refusal where
  /-- The command has no meaning yet: raised by an arm of `exec` only, and by none now. Safe: the model stops where the
  hardware goes on. -/
  | notModelled (mnemonic : String)
deriving DecidableEq, Repr

end Sys2Proof.Machine
end

