-- ==== Sys2Proof/Machine/Bytes.lean ====
section
/-! DEFINITION. Bytes as they stand on the two kinds of line: byte order, the check, the console receiver (01). -/

namespace Sys2Proof.Machine

/-- `n` in `k` bytes, high byte first (00, section 4.4). -/
def be : Nat → Nat → List Byte
  | 0, _ => []
  | k + 1, n => BitVec.ofNat 8 (n / 256 ^ k) :: be k n

/-- The number that bytes spell, high byte first. -/
def fromBe (bs : List Byte) : Nat := bs.foldl (fun a b => a * 256 + b.toNat) 0

/-- One bit of the check register (R3). -/
def crcShift (r : BitVec 16) : BitVec 16 :=
  if r.toNat < 0x8000 then r <<< 1 else (r <<< 1) ^^^ 0x1021#16

/-- One byte into the check register, most significant bit first (R3). -/
def crcByte (r : BitVec 16) (b : Byte) : BitVec 16 :=
  (fun x => crcShift (crcShift (crcShift (crcShift x))))
    (crcShift (crcShift (crcShift (crcShift (r ^^^ BitVec.ofNat 16 (b.toNat * 256))))))

/-- R3: the check over bytes in order of transmission. -/
def crc16 (bs : List Byte) : BitVec 16 := bs.foldl crcByte 0xFFFF#16

/-- The two check bytes, high byte first (R3). -/
def checkBytes (bs : List Byte) : List Byte := be 2 (crc16 bs).toNat

/-- The bytes of a console frame on the line (01, section 1.2; R3). -/
def Frame.bytes (f : Frame) : List Byte :=
  let counted := BitVec.ofNat 8 (f.payload.length + 2) :: f.kind :: f.tag :: f.payload
  0x5A#8 :: counted ++ checkBytes counted

/-- R2, Check: a frame from its length byte to its second check byte, or nothing where the check differs. -/
def checkedFrame : List Byte → Option Frame
  | len :: rest =>
    let counted := rest.take len.toNat
    if checkBytes (len :: counted) == rest.drop len.toNat then
      match counted with
      | kind :: tag :: payload => some ⟨kind, tag, payload⟩
      | _ => none
    else none
  | [] => none

/-- R2: whether a length byte is valid. -/
def lengthValid (b : Byte) : Bool := decide (2 ≤ b.toNat) && decide (b.toNat ≤ 122)

/-- R2: one byte into the receiver: the receiver after it and the frame it completed. -/
def rxByte (r : Receiver) (b : Byte) : Receiver × Option Frame :=
  match r with
  | .hunting => (if b == 0x5A#8 then .receiving [] else .hunting, none)
  | .receiving [] => (if lengthValid b then .receiving [b] else .hunting, none)
  | .receiving (len :: got) =>
    if got.length + 1 < len.toNat + 2 then (.receiving (len :: got ++ [b]), none)
    else (.hunting, checkedFrame (len :: got ++ [b]))

end Sys2Proof.Machine
end

