-- ==== Sys2Proof/Machine/Flags.lean ====
section
/-! DEFINITION. Flags as bytes: the status byte of replies and notices, flags of one byte and of one bit. -/

namespace Sys2Proof.Machine

/-- R15: a flag is 0 or 1. -/
def flag (b : Bool) : Nat := if b then 1 else 0

/-- Flags as the bits of one number, the first as bit 0. -/
def flagBits : List Bool → Nat
  | [] => 0
  | b :: rest => flag b + 2 * flagBits rest

/-- Bit `i` of a byte's value. -/
def bitOf (n i : Nat) : Bool := n / 2 ^ i % 2 == 1

/-- 01, section 1.6: bit 0 INPUT DISCARDED of a reply's status byte. -/
def replyStatus (inputDiscarded : Bool) : Byte := BitVec.ofNat 8 (flag inputDiscarded)

/-- 01, section 1.6: bit 1 NOTICES DROPPED of a notice's status byte. -/
def noticeStatus (noticesDropped : Bool) : Byte := BitVec.ofNat 8 (2 * flag noticesDropped)

end Sys2Proof.Machine
end

