-- ==== Sys2Proof/Machine/Ops.lean ====
section
/-! DEFINITION. Operations every block uses: stamps, memory, the port handlers (01), what blocks tell each other. -/

namespace Sys2Proof

/-- Entry `i` of a table of optional entries, where it is used. -/
def Table.used {n : Nat} {α : Type} (t : Table n (Option α)) (i : Nat) : Option α := (t.get i).join

/-- The number of the first entry that passes. -/
def Table.find {n : Nat} {α : Type} (t : Table n α) (p : α → Bool) : Option Nat :=
  let i := t.cells.findIdx p
  if i < n then some i else none

end Sys2Proof

namespace Sys2Proof.Machine

/-! ## Stamps and lists -/

/-- R25: the stamp of this moment. -/
def State.now (s : State) : Stamp := ⟨s.clock.day, s.clock.second⟩

/-- R15: a stamp as notice and reply data, 4 bytes, day then second. -/
def Stamp.bytes (t : Stamp) : List Byte := be 1 t.day ++ be 3 t.second

/-- An absent stamp is sent as 0 and 0 (R55). -/
def stampBytes (t : Option Stamp) : List Byte := (t.getD .zero).bytes

/-! ## Memory -/

/-- The canonical form: addresses strictly rising, no byte 0 listed. -/
def Memory.wf (m : Memory) : Bool := decide (m.Pairwise fun x y => x.1 < y.1) && m.all fun c => c.2 != 0#8

/-- The byte at an address; an unlisted one reads 0 (R178 for tally memory; log entry 6 for plan memory). -/
def Memory.read : Memory → Nat → Byte
  | [], _ => 0
  | c :: rest, a => if c.1 == a then c.2 else Memory.read rest a

/-- Write one byte, keeping the canonical form. -/
def Memory.write : Memory → Nat → Byte → Memory
  | [], a, b => if b == 0#8 then [] else [(a, b)]
  | c :: rest, a, b =>
    if a < c.1 then (if b == 0#8 then c :: rest else (a, b) :: c :: rest)
    else if a == c.1 then (if b == 0#8 then rest else (a, b) :: rest)
    else c :: Memory.write rest a b

/-- `n` bytes from address `a`. -/
def Memory.readBytes (m : Memory) (a : Nat) : Nat → List Byte
  | 0 => []
  | n + 1 => m.read a :: Memory.readBytes m (a + 1) n

/-- Write bytes from address `a` on. -/
def Memory.writeBytes (m : Memory) (a : Nat) : List Byte → Memory
  | [] => m
  | b :: rest => Memory.writeBytes (m.write a b) (a + 1) rest

/-! ## Replies -/

/-- R10: values of the refusal codes. -/
def Refuse.value : Refuse → Nat
  | .format => 0x01
  | .unknown => 0x02
  | .role => 0x03
  | .denied => 0x04
  | .range => 0x05
  | .state => 0x06
  | .busy => 0x07
  | .full => 0x08
  | .empty => 0x09
  | .absent => 0x0A
  | .conflict => 0x0B
  | .tooLate => 0x0C
  | .notLeased => 0x0D
  | .noHeadroom => 0x0E
  | .loading => 0x0F

/-- R9: values of the reply kinds. -/
def Reply.kind : Reply → Byte
  | .done _ => 0x80
  | .accepted => 0x81
  | .refused _ _ _ => 0x82

/-- R9, R10: what follows a reply's status byte. -/
def Reply.data : Reply → List Byte
  | .done data => data
  | .accepted => []
  | .refused code field window => be 1 code.value ++ be 1 field ++ be 1 window

/-- R10: a refusal with the window index of every code but DENIED. -/
def refuse (code : Refuse) (field : Nat) : Reply := .refused code field 0xFF

/-! ## Notices -/

/-- R15: values of the notice kinds. -/
def NoticeKind.value : NoticeKind → Byte
  | .started => 0xA0
  | .clockEnded => 0xA1
  | .deliveryClosed => 0xA2
  | .setState => 0xA8
  | .alarmChange => 0xA9
  | .fuelLow => 0xAA
  | .fuelLowClear => 0xAB
  | .unexplainedRise => 0xAC
  | .stationLost => 0xAD
  | .stationBack => 0xAE
  | .lineJammed => 0xAF
  | .lineClear => 0xB0
  | .deliveryHalted => 0xB1
  | .changeoverEnded => 0xB2
  | .noAlternate => 0xB3
  | .stageState => 0xB4
  | .logFull => 0xB8
  | .mapMiss => 0xB9
  | .implausible => 0xBA
  | .tallyFault => 0xBB
  | .periodClosed => 0xBC

/-- R15: whether a kind is sent on a port. -/
def NoticeKind.goesTo : NoticeKind → Port → Bool
  | .started, _ => true
  | .clockEnded, _ => true
  | .deliveryClosed, _ => true
  | .logFull, p => p == .office
  | .mapMiss, p => p == .office
  | .implausible, p => p == .office
  | .tallyFault, p => p == .office
  | .periodClosed, p => p == .office
  | .setState, p => p == .yard
  | .alarmChange, p => p == .yard
  | .fuelLow, p => p == .yard
  | .fuelLowClear, p => p == .yard
  | .unexplainedRise, p => p == .yard
  | .stationLost, p => p == .yard
  | .stationBack, p => p == .yard
  | .lineJammed, p => p == .yard
  | .lineClear, p => p == .yard
  | .deliveryHalted, p => p == .yard
  | .changeoverEnded, p => p == .yard
  | .noAlternate, p => p == .yard
  | .stageState, p => p == .yard

/-! ## Port handlers -/

/-- The handler of a port. -/
def State.port (s : State) : Port → PortState
  | .yard => s.yard
  | .office => s.office

/-- Change the handler of a port. -/
def State.withPort (s : State) (p : Port) (f : PortState → PortState) : State :=
  match p with
  | .yard => { s with yard := f s.yard }
  | .office => { s with office := f s.office }

/-- R8: a reply's frame: kind, the request's tag, status byte and data. -/
def replyFrame (r : Reply) (tag : Byte) (inputDiscarded : Bool) : Frame :=
  ⟨r.kind, tag, replyStatus inputDiscarded :: r.data⟩

/-- 01, section 1.6: a notice's frame: kind, tag 0, status byte, stamp day, stamp second, data. -/
def noticeFrame (n : Notice) (noticesDropped : Bool) : Frame :=
  ⟨n.kind.value, 0, noticeStatus noticesDropped :: (n.stamp.bytes ++ n.data)⟩

/-- R12: an idle transmitter begins the waiting reply, else the oldest notice, else stays idle. -/
def PortState.kick (q : PortState) : PortState :=
  match q.tx, q.waiting, q.notices with
  | some _, _, _ => q
  | none, some r, _ =>
    { q with
      tx := some ⟨replyFrame r (q.inProgress.elim 0 fun x => x.tag) q.inputDiscarded, true⟩
      waiting := none
      inputDiscarded := false }
  | none, none, n :: rest =>
    { q with
      tx := some ⟨noticeFrame n q.noticesDropped, false⟩
      notices := rest
      noticesDropped := false }
  | none, none, [] => q

/-- R13: a notice joins the queue, or is dropped and sets the dropped-notice flag. -/
def PortState.post (q : PortState) (n : Notice) : PortState :=
  if q.notices.length < Config.noticeCap then { q with notices := q.notices ++ [n] }
  else { q with noticesDropped := true }

/-- R4: a complete frame joins the buffer, or is discarded and sets the input-discarded flag. -/
def PortState.offer (q : PortState) (f : Frame) : PortState :=
  if q.buffer.length < Config.bufferCap then { q with buffer := q.buffer ++ [f] }
  else { q with inputDiscarded := true }

/-- R2, R4: received bytes run through the receiver, each complete frame going to the buffer. -/
def PortState.receive (q : PortState) : List Byte → PortState
  | [] => q
  | b :: rest =>
    let (rx, frame) := rxByte q.rx b
    let q := { q with rx := rx }
    PortState.receive (match frame with | some f => q.offer f | none => q) rest

/-- R12: the frame being sent has ended; the end of a reply ends the request in progress (R5). -/
def PortState.sent (q : PortState) : PortState :=
  match q.tx with
  | some f => { q with tx := none, inProgress := if f.isReply then none else q.inProgress }
  | none => q

/-- R5: a free handler takes the oldest frame of its buffer, which becomes the request in progress, not yet judged;
while a soft reset is due no frame is taken (R17). -/
def PortState.takeNext (q : PortState) (mayTake : Bool) : PortState :=
  match q.inProgress, q.buffer with
  | none, f :: rest => if mayTake then { q with buffer := rest, inProgress := some ⟨f, false⟩ } else q
  | none, [] => q
  | some _, _ => q

/-- R15: a block posts a notice to the queue of each port its kind belongs to. -/
def State.post (s : State) (k : NoticeKind) (data : List Byte) : State :=
  let n : Notice := ⟨k, s.now, data⟩
  let s := if k.goesTo .yard then s.withPort .yard fun q => q.post n else s
  if k.goesTo .office then s.withPort .office fun q => q.post n else s

/-- R12: the owner's answer is ready on a port. -/
def State.answer (s : State) (p : Port) (r : Reply) : State :=
  s.withPort p fun q => { q with waiting := some r }

/-- R5, R12: at the end of a step each transmitter begins what it may (log entry 25), and each handler takes a frame where
it may (log entries 7 and 27). -/
def State.transmit (s : State) : State :=
  { s with
    yard := s.yard.kick.takeNext !s.loader.resetDue
    office := s.office.kick.takeNext !s.loader.resetDue }

/-- R7: the role of a port. -/
def roleOf : Port → Role
  | .yard => .crew
  | .office => .office

/-! ## What blocks tell each other -/

/-- One block tells another (log entry 9). -/
def State.tell (s : State) (m : Told) : State := { s with told := s.told ++ [m] }

end Sys2Proof.Machine
end

