-- ==== Sys2Proof/Machine/Operands.lean ====
section
/-! DEFINITION. Requests as operands: the request table (R7), payload layouts, the checks a handler makes (R6), and the
judging and answering of a request (R6, R8, R12). -/

namespace Sys2Proof.Machine

/-- The layout of a payload: fields of fixed width in bytes, or fields before a count of one byte and that many entries
(R6). -/
inductive Layout where
  | fixed (widths : List Nat)
  | list (before : List Nat) (cap : Nat) (entry : List Nat)
deriving DecidableEq, Repr

/-- A row of the table of R7, with the payload layout its owner chapter gives. -/
structure RequestRow where
  kind : Byte
  yard : Bool
  office : Bool
  layout : Layout
deriving DecidableEq, Repr

/-- R7, column Port. -/
def RequestRow.allowedOn (r : RequestRow) : Port → Bool
  | .yard => r.yard
  | .office => r.office

namespace RequestRow
def identify : RequestRow := ⟨0x01, true, true, .fixed []⟩
def resetPart : RequestRow := ⟨0x02, false, true, .fixed []⟩
def writePlan : RequestRow := ⟨0x03, false, true, .list [1, 1, 2, 2] 112 [1]⟩
def setClock : RequestRow := ⟨0x10, false, true, .fixed [1, 3]⟩
def startClock : RequestRow := ⟨0x11, false, true, .fixed []⟩
def stopClock : RequestRow := ⟨0x12, false, true, .fixed []⟩
def readClock : RequestRow := ⟨0x13, true, true, .fixed []⟩
def writeTariff : RequestRow := ⟨0x14, false, true, .list [] 8 [3, 1]⟩
def readTariff : RequestRow := ⟨0x15, true, true, .fixed []⟩
def writeWindow : RequestRow := ⟨0x18, false, true, .fixed [1, 1, 2, 2, 1, 1, 1, 1]⟩
def readWindow : RequestRow := ⟨0x19, true, true, .fixed [1]⟩
def enrolStation : RequestRow := ⟨0x20, true, false, .fixed [1, 1, 1, 1]⟩
def removeStation : RequestRow := ⟨0x21, true, false, .fixed [1]⟩
def readStation : RequestRow := ⟨0x22, true, true, .fixed [1]⟩
def leaseSet : RequestRow := ⟨0x28, false, true, .fixed [1, 2, 4, 2, 2, 2, 2, 2]⟩
def releaseSet : RequestRow := ⟨0x29, false, true, .fixed [1]⟩
def startSet : RequestRow := ⟨0x2A, true, false, .fixed [1]⟩
def stopSet : RequestRow := ⟨0x2B, true, false, .fixed [1]⟩
def clearFault : RequestRow := ⟨0x2C, true, false, .fixed [1]⟩
def ackAlarms : RequestRow := ⟨0x2D, true, false, .fixed [1]⟩
def setMarks : RequestRow := ⟨0x2E, true, false, .fixed [1, 2, 2, 2, 2]⟩
def readSet : RequestRow := ⟨0x2F, true, true, .fixed [1]⟩
def openDelivery : RequestRow := ⟨0x30, true, false, .fixed [1, 4, 2, 1, 2]⟩
def holdDelivery : RequestRow := ⟨0x31, true, false, .fixed [1]⟩
def resumeDelivery : RequestRow := ⟨0x32, true, false, .fixed [1]⟩
def finishDelivery : RequestRow := ⟨0x33, true, false, .fixed [1]⟩
def cancelDelivery : RequestRow := ⟨0x34, true, false, .fixed [1]⟩
def readChannel : RequestRow := ⟨0x35, true, true, .fixed [1]⟩
def takeDeliveryRecord : RequestRow := ⟨0x36, false, true, .fixed []⟩
def assignInput : RequestRow := ⟨0x38, true, false, .fixed [1, 1, 1]⟩
def setStage : RequestRow := ⟨0x39, true, false, .fixed [1, 1, 1]⟩
def changeOver : RequestRow := ⟨0x3A, true, false, .fixed [1]⟩
def abortChangeover : RequestRow := ⟨0x3B, true, false, .fixed [1]⟩
def restoreStage : RequestRow := ⟨0x3C, true, false, .fixed [1, 1]⟩
def readStage : RequestRow := ⟨0x3D, true, true, .fixed [1]⟩
def installMap : RequestRow := ⟨0x40, false, true, .fixed [1, 2, 1, 1]⟩
def clearMap : RequestRow := ⟨0x41, false, true, .fixed [1, 1]⟩
def readMiss : RequestRow := ⟨0x42, false, true, .fixed []⟩
def readMap : RequestRow := ⟨0x43, true, true, .fixed [1]⟩
def readCircuit : RequestRow := ⟨0x44, true, true, .fixed [1]⟩
def setSweep : RequestRow := ⟨0x45, false, true, .fixed [2, 4]⟩
def statement : RequestRow := ⟨0x48, true, true, .fixed [2]⟩
def rewriteAccount : RequestRow := ⟨0x49, false, true, .fixed [2, 4, 4, 4, 4, 4, 4, 4, 4, 4, 4, 5, 1, 2]⟩
def flushTotals : RequestRow := ⟨0x4A, false, true, .fixed []⟩
def initTally : RequestRow := ⟨0x4B, false, true, .fixed []⟩
def readTallyFault : RequestRow := ⟨0x4C, false, true, .fixed []⟩
def closePeriod : RequestRow := ⟨0x50, false, true, .fixed []⟩
def takeHireRecord : RequestRow := ⟨0x51, false, true, .fixed []⟩
def readPeriod : RequestRow := ⟨0x52, true, true, .fixed []⟩
end RequestRow

/-- R7: the 49 rows, group by group. -/
def requestRows : List RequestRow :=
  List.flatten
    [[.identify, .resetPart, .writePlan],
      [.setClock, .startClock, .stopClock, .readClock, .writeTariff, .readTariff],
      [.writeWindow, .readWindow],
      [.enrolStation, .removeStation, .readStation],
      [.leaseSet, .releaseSet, .startSet, .stopSet, .clearFault, .ackAlarms, .setMarks, .readSet],
      [.openDelivery, .holdDelivery, .resumeDelivery, .finishDelivery, .cancelDelivery, .readChannel,
        .takeDeliveryRecord],
      [.assignInput, .setStage, .changeOver, .abortChangeover, .restoreStage, .readStage],
      [.installMap, .clearMap, .readMiss, .readMap, .readCircuit, .setSweep],
      [.statement, .rewriteAccount, .flushTotals, .initTally, .readTallyFault],
      [.closePeriod, .takeHireRecord, .readPeriod]]

/-- R6, check 1. -/
def isRequestKind (k : Byte) : Bool := requestRows.any fun r => r.kind == k

/-! ## Payload fields -/

/-- The values of fields of these widths. -/
def fieldValues : List Nat → List Byte → List Nat
  | [], _ => []
  | w :: ws, bs => fromBe (bs.take w) :: fieldValues ws (bs.drop w)

/-- The index, from `k` on, of the first field not wholly present in `n` bytes. -/
def firstMissing (k : Nat) : List Nat → Nat → Option Nat
  | [], _ => none
  | w :: ws, n => if n < w then some k else firstMissing (k + 1) ws (n - w)

/-- R6, check 4, fixed layout. -/
def parseFixed (widths : List Nat) (bs : List Byte) : Except Reply (List Nat) :=
  match firstMissing 1 widths bs.length with
  | some k => .error (refuse .format k)
  | none => if widths.sum < bs.length then .error (refuse .format 0) else .ok (fieldValues widths bs)

/-- The widths of `n` entries. -/
def repeatWidths (entry : List Nat) : Nat → List Nat
  | 0 => []
  | n + 1 => entry ++ repeatWidths entry n

/-- R6, check 4, count and list (log entry 8). -/
def parseList (before : List Nat) (cap : Nat) (entry : List Nat) (bs : List Byte) : Except Reply (List Nat) :=
  let index := before.length + 1
  match bs[before.sum]? with
  | none => .error (refuse .format index)
  | some c =>
    if cap < c.toNat then .error (refuse .range index)
    else if bs.length ≠ before.sum + 1 + c.toNat * entry.sum then .error (refuse .format index)
    else .ok (fieldValues (before ++ 1 :: repeatWidths entry c.toNat) bs)

/-- R6, check 4. -/
def Layout.parse : Layout → List Byte → Except Reply (List Nat)
  | .fixed widths, bs => parseFixed widths bs
  | .list before cap entry, bs => parseList before cap entry bs

/-- Field `k` of a request, numbered from 1 (R6). -/
def arg (fields : List Nat) (k : Nat) : Nat := fields.getD (k - 1) 0

/-! ## Judging and answering -/

/-- R6: checks 2, 3 and 4, in this order. -/
def judge (p : Port) (row : RequestRow) (ready : Bool) (payload : List Byte) : Except Reply (List Nat) :=
  if !ready && row.kind != 0x01#8 then .error (refuse .loading 0)
  else if !row.allowedOn p then .error (refuse .role 0)
  else row.layout.parse payload

/-- R6: the request in progress on a port has been judged. -/
def State.judged (s : State) (p : Port) : State :=
  s.withPort p fun q => { q with inProgress := q.inProgress.map fun r => { r with judged := true } }

/-- What an owner makes of a request: the state after it and its reply; no reply yet where the reply waits for the work
list (R11, R165). -/
abbrev Answered := State × Option Reply

/-- An owner's answer goes to the port. -/
def deliver (p : Port) (a : Answered) : State :=
  match a.2 with
  | some r => a.1.answer p r
  | none => a.1

/-- R6: judge the request in progress on a port where it has not been judged and `accepts` holds of it: the handler's
checks, then the owner decides. Where there is no such request, nothing happens (log entries 2 and 7). -/
def serveWhere (accepts : Frame → Bool) (p : Port) (row : RequestRow) (owner : List Nat → State → Answered)
    (s : State) : State :=
  match (s.port p).inProgress with
  | none => s
  | some r =>
    if !r.judged && accepts r.toFrame then
      match judge p row s.loader.ready r.payload with
      | .error e => (s.judged p).answer p e
      | .ok fields => deliver p (owner fields (s.judged p))
    else s

/-- A request is judged by the command of its kind (log entry 7). -/
def serve (p : Port) (row : RequestRow) (owner : List Nat → State → Answered) (s : State) : State :=
  serveWhere (fun f => f.kind == row.kind) p row owner s

/-! ## Owners' answers -/

/-- DONE with data. -/
def done (s : State) (data : List Byte) : Answered := (s, some (.done data))

/-- Checks in order: the first condition that holds decides the refusal, and the state is unchanged; else `act`. -/
def unlessRefused (s : State) (checks : List (Bool × Reply)) (act : Answered) : Answered :=
  match checks.find? fun c => c.1 with
  | some c => (s, some c.2)
  | none => act

end Sys2Proof.Machine
end

