-- ==== Sys2Proof/Machine/Windows.lean ====
section
/-! DEFINITION. The Window check (03): matching, governing windows, WRITE WINDOW and READ WINDOW. -/

namespace Sys2Proof.Machine

/-- R32: whether a number agrees with base wherever the mask bit is 0. -/
def maskedEq {w : Nat} (a base mask : BitVec w) : Bool := ((a ^^^ base) &&& ~~~mask) == 0#w

/-- R31: whether a role is in an account window's roles. -/
def AccountWindow.lists (w : AccountWindow) : Role → Bool
  | .crew => w.crew
  | .office => w.office
  | .engine => w.engine
  | .auto => false

/-- R37: whether a role is in a set window's roles. -/
def SetWindow.lists (w : SetWindow) : Role → Bool
  | .crew => w.crew
  | .office => w.office
  | .engine => false
  | .auto => w.auto

/-- R32. -/
def AccountWindow.matches (w : AccountWindow) (r : Role) (account : Nat) : Bool :=
  w.enabled && w.lists r && maskedEq (BitVec.ofNat 10 account) w.base w.mask

/-- R37. -/
def SetWindow.matches (w : SetWindow) (r : Role) (set : Nat) : Bool :=
  w.enabled && w.lists r && maskedEq (BitVec.ofNat 4 set) w.base w.mask

/-- R33: the governing window of an account for a role: its number and the window. -/
def Windows.governing (ws : Windows) (r : Role) (account : Nat) : Option (Nat × AccountWindow) :=
  (ws.account.cells.zipIdx.find? fun x => x.1.matches r account).map fun x => (x.2, x.1)

/-- R37: the governing window of a set for a role: its window index (4 or 5) and the window. -/
def Windows.governingSet (ws : Windows) (r : Role) (set : Nat) : Option (Nat × SetWindow) :=
  (ws.sets.cells.zipIdx.find? fun x => x.1.matches r set).map fun x => (x.2 + 4, x.1)

/-- R34, R35: the window that denies a role change of an account, if any. -/
def Windows.denies (ws : Windows) (r : Role) (account : Nat) : Option Nat :=
  match ws.governing r account with
  | some (k, w) => if w.deny then some k else none
  | none => none

/-- R38, R39: the window index that denies a role control of a set, if any. -/
def Windows.deniesSet (ws : Windows) (r : Role) (set : Nat) : Option Nat :=
  match ws.governingSet r set with
  | some (k, w) => if w.deny then some k else none
  | none => none

/-- R34, R38: the check on a window's denial, as an owner makes it: the refusal names the window and the field. -/
def denied (window : Option Nat) (field : Nat) : Bool × Reply := (window.isSome, .refused .denied field (window.getD 0xFF))

/-- R36: the total mode of an account. -/
def Windows.mode (ws : Windows) (account : Nat) : TotalMode :=
  match ws.governing .engine account with
  | some (_, w) => w.mode
  | none => .through

/-- R35: the tag an update of an account carries. -/
def Windows.tag (ws : Windows) (account : Nat) : BitVec 2 :=
  match ws.governing .engine account with
  | some (_, w) => w.tag
  | none => 0

/-- 03, section 3.5: coding of the mode. -/
def TotalMode.value : TotalMode → Nat
  | .held => 0
  | .through => 1
  | .direct => 2

/-- 03, section 3.5: the mode that a value codes. -/
def modeOf : Nat → TotalMode
  | 0 => .held
  | 1 => .through
  | _ => .direct

/-- Fields 2 to 8 of a window as numbers: enabled, base, mask, roles, deny, mode, tag (03, section 3.5). -/
structure WindowFields where
  enabled : Nat
  base : Nat
  mask : Nat
  roles : Nat
  deny : Nat
  mode : Nat
  tag : Nat
deriving DecidableEq, Repr

/-- R40: the index of the first of fields 2 to 8 outside the range given for the window. -/
def WindowFields.firstBad (f : WindowFields) (window : Nat) : Option Nat :=
  let forSet := decide (4 ≤ window)
  if 1 < f.enabled then some 2
  else if (if forSet then 11 else 1023) < f.base then some 3
  else if (if forSet then 15 else 1023) < f.mask then some 4
  else if 7 < f.roles then some 5
  else if 1 < f.deny then some 6
  else if (if forSet then 0 else 2) < f.mode then some 7
  else if (if forSet then 0 else 3) < f.tag then some 8
  else none

/-- The account window that fields spell. -/
def WindowFields.account (f : WindowFields) : AccountWindow :=
  ⟨f.enabled == 1, BitVec.ofNat 10 f.base, BitVec.ofNat 10 f.mask, bitOf f.roles 0, bitOf f.roles 1, bitOf f.roles 2,
    f.deny == 1, modeOf f.mode, BitVec.ofNat 2 f.tag⟩

/-- The set window that fields spell. -/
def WindowFields.set (f : WindowFields) : SetWindow :=
  ⟨f.enabled == 1, BitVec.ofNat 4 f.base, BitVec.ofNat 4 f.mask, bitOf f.roles 0, bitOf f.roles 1, bitOf f.roles 2,
    f.deny == 1⟩

/-- R41, R44: window `k` of the six takes the fields. -/
def Windows.write (ws : Windows) (k : Nat) (f : WindowFields) : Windows :=
  if k < 4 then { ws with account := ws.account.set k f.account } else { ws with sets := ws.sets.set (k - 4) f.set }

/-- Fields 2 to 8 as bytes (03, section 3.5). -/
def WindowFields.bytes (f : WindowFields) : List Byte :=
  be 1 f.enabled ++ be 2 f.base ++ be 2 f.mask ++ be 1 f.roles ++ be 1 f.deny ++ be 1 f.mode ++ be 1 f.tag

/-- R43: an account window's fields. -/
def AccountWindow.fields (w : AccountWindow) : WindowFields :=
  ⟨flag w.enabled, w.base.toNat, w.mask.toNat, flagBits [w.crew, w.office, w.engine], flag w.deny, w.mode.value,
    w.tag.toNat⟩

/-- R43: a set window's fields; its mode and tag are 0. -/
def SetWindow.fields (w : SetWindow) : WindowFields :=
  ⟨flag w.enabled, w.base.toNat, w.mask.toNat, flagBits [w.crew, w.office, w.auto], flag w.deny, 0, 0⟩

/-- R43: the fields of window `k` of the six. -/
def Windows.fieldsOf (ws : Windows) (k : Nat) : WindowFields :=
  if k < 4 then ((ws.account.get k).getD .reset).fields else ((ws.sets.get (k - 4)).getD .reset).fields

/-- Fields 2 to 8 of a WRITE WINDOW. -/
def windowFields (fields : List Nat) : WindowFields :=
  ⟨arg fields 2, arg fields 3, arg fields 4, arg fields 5, arg fields 6, arg fields 7, arg fields 8⟩

/-- R40, R41: WRITE WINDOW. DONE of an account window waits for the window write-back (R42). -/
def ownWriteWindow (fields : List Nat) (s : State) : Answered :=
  let k := arg fields 1
  let f := windowFields fields
  if 5 < k then (s, some (refuse .range 1))
  else
    match f.firstBad k with
    | some field => (s, some (refuse .range field))
    | none =>
      let s := { s with windows := s.windows.write k f }
      if k < 4 then ({ s with tally.work := s.tally.work ++ [.windowWriteBack .writeBack 0] }, none)
      else done s []

/-- R43: READ WINDOW. -/
def ownReadWindow (fields : List Nat) (s : State) : Answered :=
  let k := arg fields 1
  unlessRefused s [(decide (5 < k), refuse .range 1)] (done s (be 1 k ++ (s.windows.fieldsOf k).bytes))

end Sys2Proof.Machine
end

