-- ==== Sys2Proof/Machine/Clock.lean ====
section
/-! DEFINITION. The Clock unit and the time base (02). -/

namespace Sys2Proof.Machine

/-- R27: the band at a second of the day. -/
def bandAt (tariff : List TariffEntry) (second : Nat) : Nat :=
  let before := tariff.filter fun e => decide (e.start ≤ second)
  match before.getLast? with
  | some e => e.band
  | none => (tariff.getLast?.map fun e => e.band).getD 0

/-- R27: the band at this moment. -/
def State.band (s : State) : Nat := bandAt s.clock.tariff s.clock.second

/-- Coding of the clock state (02, section 2.4). -/
def ClockState.value : ClockState → Nat
  | .unset => 0
  | .stopped => 1
  | .running => 2
  | .ended => 3

/-- R23, R24: whether the clock stands on its last second. -/
def Clock.atEnd (c : Clock) : Bool := c.day == Config.lastDay && c.second == Config.lastSecond

/-- R23: one second on, within the days of the clock; the sweep timer counts it. -/
def Clock.advance (c : Clock) : Clock :=
  let c := { c with phase := c.phase - 10, elapsed := c.elapsed + 1 }
  if c.second < Config.lastSecond then { c with second := c.second + 1 }
  else { c with day := c.day + 1, second := 0 }

/-- R23, R24: the increment of the clock, where one is due (log entry 3). -/
def clockIncrement (s : State) : State :=
  if s.clock.state == .running && decide (10 ≤ s.clock.phase) then
    if s.clock.atEnd then { s with clock.state := .ended, clock.phase := 0 }.post .clockEnded []
    else { s with clock := s.clock.advance }
  else s

/-- R20: SET CLOCK. -/
def ownSetClock (fields : List Nat) (s : State) : Answered :=
  unlessRefused s
    [(decide (Config.lastSecond < arg fields 2), refuse .range 2),
      (s.clock.state != .unset, refuse .state 0)]
    (done { s with clock.day := arg fields 1, clock.second := arg fields 2, clock.phase := 0 } [])

/-- R21: START CLOCK. -/
def ownStartClock (_fields : List Nat) (s : State) : Answered :=
  unlessRefused s [(s.clock.state == .running || s.clock.state == .ended, refuse .state 0)]
    (done { s with clock.state := .running, clock.phase := 0, clock.elapsed := 0 } [])

/-- R22: STOP CLOCK. -/
def ownStopClock (_fields : List Nat) (s : State) : Answered :=
  unlessRefused s [(s.clock.state != .running, refuse .state 0)]
    (done { s with clock.state := .stopped, clock.phase := 0 } [])

/-- R25: READ CLOCK. -/
def ownReadClock (_fields : List Nat) (s : State) : Answered :=
  let c := s.clock
  done s (be 1 c.state.value ++ be 1 c.day ++ be 3 c.second ++ be 2 c.interval ++ be 4 c.limit ++
    be 2 (if c.state == .running then c.interval - c.elapsed else 0) ++ be 1 s.band)

/-- The entries that the fields after the count spell. -/
def tariffEntries : List Nat → List TariffEntry
  | start :: band :: rest => ⟨start, band⟩ :: tariffEntries rest
  | _ => []

/-- R26: the index of the first field, from `k` on, that fails; `before` is the start second of the entry before. -/
def firstBadEntry (k : Nat) (before : Option Nat) : List TariffEntry → Option Nat
  | [] => none
  | e :: rest =>
    if Config.lastSecond < e.start then some k
    else if (before.elim false fun b => decide (e.start ≤ b)) then some k
    else if 3 < e.band then some (k + 1)
    else firstBadEntry (k + 2) (some e.start) rest

/-- R26: WRITE TARIFF. -/
def ownWriteTariff (fields : List Nat) (s : State) : Answered :=
  let entries := tariffEntries (fields.drop 1)
  match firstBadEntry 2 none entries with
  | some field => (s, some (refuse .range field))
  | none => done { s with clock.tariff := entries } []

/-- R27: READ TARIFF. -/
def ownReadTariff (_fields : List Nat) (s : State) : Answered :=
  done s (be 1 s.clock.tariff.length ++ (s.clock.tariff.flatMap fun e => be 3 e.start ++ be 1 e.band) ++ be 1 s.band)

/-- R29: SET SWEEP. -/
def ownSetSweep (fields : List Nat) (s : State) : Answered :=
  let interval := arg fields 1
  let limit := arg fields 2
  unlessRefused s
    [(decide (interval < 60) || decide (900 < interval), refuse .range 1),
      (decide (limit < 1000) || decide (4000000 < limit), refuse .range 2)]
    (done { s with clock.interval := interval, clock.limit := limit, clock.elapsed := 0 } [])

end Sys2Proof.Machine
end

