-- ==== Sys2Proof/Machine/Line.lean ====
section
/-! DEFINITION. The Line master's own work (04): frames and reception, the command queue, the choice of transactions. -/

namespace Sys2Proof.Machine

/-! ## Codes -/

/-- 04: coding of the class (R53). -/
def StationClass.value : StationClass → Nat
  | .set => 0
  | .bowser => 1
  | .board => 2
  | .meter => 3

/-- R53: the class that a value codes. -/
def classOf : Nat → Option StationClass
  | 0 => some .set
  | 1 => some .bowser
  | 2 => some .board
  | 3 => some .meter
  | _ => none

/-- 04: the greatest object index of a class. -/
def StationClass.lastObject : StationClass → Nat
  | .set => 11
  | .bowser => 2
  | .board => 7
  | .meter => 11

/-- R55: coding of the station state. -/
def StationState.value : StationState → Nat
  | .unknown => 0
  | .answering => 1
  | .lost => 2

/-- R55: coding of the fault kind. -/
def LineFault.value : LineFault → Nat
  | .silent => 1
  | .badCheck => 2
  | .wrongSource => 3
  | .tooLong => 4
  | .aborted => 5
  | .nak => 6

/-- R55: no fault kind is 0. -/
def faultValue (f : Option LineFault) : Nat := f.elim 0 LineFault.value

/-- 04: the class of station a command is sent to. -/
def Order.cls : Order → StationClass
  | .startEngine => .set
  | .stopEngine => .set
  | .clearShutdown => .set
  | .pumpRun => .bowser
  | .pumpHalt => .bowser
  | .openInput _ => .board
  | .closeInput _ => .board
  | .readCounters => .meter

/-- 04, section 4.3: frame kinds of the commands. -/
def Order.kind : Order → Byte
  | .startEngine => 0x10
  | .stopEngine => 0x11
  | .clearShutdown => 0x12
  | .pumpRun => 0x18
  | .pumpHalt => 0x19
  | .openInput .a => 0x20
  | .openInput .b => 0x21
  | .closeInput .a => 0x22
  | .closeInput .b => 0x23
  | .readCounters => 0x28

/-- 04, section 4.3: the frame kind of a transaction. -/
def Job.kind : Job → Byte
  | .poll => 0x01
  | .command _ o => o.kind

/-- R48: the reply kind of a transaction: REPORT or EXECUTED. -/
def Job.replyKind : Job → Byte
  | .poll => 0x81
  | .command _ _ => 0x82

/-! ## Frames -/

/-- R46: the mark and the escape. -/
def mark : Byte := 0xB6#8
def escape : Byte := 0xB5#8

/-- R46: transparency. -/
def escaped : List Byte → List Byte
  | [] => []
  | b :: rest => if b == mark || b == escape then escape :: (b ^^^ 0x20#8) :: escaped rest else b :: escaped rest

/-- R46: a frame on the line. -/
def lineFrame (destination source kind : Byte) (payload : List Byte) : List Byte :=
  let body := destination :: source :: kind :: payload
  mark :: escaped (body ++ checkBytes body) ++ [mark]

/-- R46: the bytes of the frame that a transaction sends. -/
def Transaction.bytes (t : Transaction) : List Byte := lineFrame (BitVec.ofNat 8 t.address) 0 t.job.kind []

/-- R47: how a frame ends. -/
inductive LineEnd where
  | good (destination source kind : Byte) (payload : List Byte)
  | bad
  | aborted
  | overlong
deriving DecidableEq, Repr

/-- R47, Mark: what a mark makes of a body of at least one byte. -/
def closeBody (body : List Byte) : LineEnd :=
  let n := body.length - 2
  match body.take n with
  | destination :: source :: kind :: payload =>
    if checkBytes (body.take n) == body.drop n then .good destination source kind payload else .bad
  | _ => .bad

/-- R47: one more body byte. -/
def collect (body : List Byte) (b : Byte) : LineReceiver × Option LineEnd :=
  if body.length < 53 then (.receiving (body ++ [b]) false, none) else (.hunting, some .overlong)

/-- R47: one byte into the yard line receiver. -/
def lineByte (r : LineReceiver) (b : Byte) : LineReceiver × Option LineEnd :=
  match r with
  | .hunting => (if b == mark then .receiving [] false else .hunting, none)
  | .receiving body true => if b == mark then (.hunting, some .aborted) else collect body (b ^^^ 0x20#8)
  | .receiving body false =>
    if b == mark then (if body.isEmpty then (.receiving [] false, none) else (.hunting, some (closeBody body)))
    else if b == escape then (.receiving body true, none)
    else collect body b

/-- R47: bytes into the receiver up to the first frame end: the receiver, that end, and the bytes after it. -/
def lineRun (r : LineReceiver) : List Byte → LineReceiver × Option (LineEnd × List Byte)
  | [] => (r, none)
  | b :: rest =>
    match lineByte r b with
    | (r, some e) => (r, some (e, rest))
    | (r, none) => lineRun r rest

/-- R47: the end of the one frame that these bytes are, heard from hunting on: their last byte ends it, or a framing
error does (a bad frame). -/
def endingOf : LineBytes → Option LineEnd
  | .bytes raw =>
    match lineRun .hunting raw with
    | (_, some (e, [])) => some e
    | _ => none
  | .framingError raw =>
    match lineRun .hunting raw with
    | (.receiving _ _, none) => some .bad
    | _ => none

/-! ## Status reports -/

/-- Section 4.4: a status report. -/
inductive Report where
  | set (r : SetReport)
  | bowser (r : BowserReport)
  | board (r : BoardReport)
  | meter (counters : List Word32)
deriving DecidableEq, Repr

/-- Section 4.4: coding of the engine. -/
def engineOf : Nat → Option Engine
  | 0 => some .off
  | 1 => some .cranking
  | 2 => some .running
  | 3 => some .shutdown
  | _ => none

/-- Section 4.4, SET. -/
def setReportOf (now : Stamp) (bs : List Byte) : Option Report :=
  match fieldValues [1, 1, 2, 4, 2] bs with
  | [engine, alarm, level, energy, power] =>
    (engineOf engine).map fun e => .set ⟨e, BitVec.ofNat 8 alarm, level, BitVec.ofNat 32 energy, power, now⟩
  | _ => none

/-- Section 4.4, BOWSER. -/
def bowserReportOf (bs : List Byte) : Option Report :=
  match fieldValues [1, 4] bs with
  | [pump, count] => if pump < 2 then some (.bowser ⟨pump == 1, BitVec.ofNat 32 count⟩) else none
  | _ => none

/-- Section 4.4, BOARD. -/
def boardReportOf (bs : List Byte) : Option Report :=
  match fieldValues [1, 2] bs with
  | [i, demand] =>
    if i < 16 then some (.board ⟨bitOf i 0, bitOf i 1, bitOf i 2, bitOf i 3, demand⟩) else none
  | _ => none

/-- Section 4.4, METER. -/
def meterReportOf (bs : List Byte) : Report :=
  .meter ((fieldValues [4, 4, 4, 4, 4, 4, 4, 4] bs).map fun n => BitVec.ofNat 32 n)

/-- Section 4.4: bytes of a report of a class. -/
def StationClass.reportBytes : StationClass → Nat
  | .set => 10
  | .bowser => 5
  | .board => 3
  | .meter => 32

/-- R51: the valid status report of a class that a payload is. -/
def reportOf (c : StationClass) (now : Stamp) (bs : List Byte) : Option Report :=
  if bs.length ≠ c.reportBytes then none
  else
    match c with
    | .set => setReportOf now bs
    | .bowser => bowserReportOf bs
    | .board => boardReportOf bs
    | .meter => some (meterReportOf bs)

/-- R49, R50: what a frame end makes of a listening transaction. -/
inductive Verdict where
  | accepted (r : Report)
  | failed (f : LineFault)
deriving DecidableEq, Repr

/-- R49, R50: the reply judged by its frame end. -/
def Transaction.verdict (t : Transaction) (now : Stamp) : LineEnd → Verdict
  | .bad => .failed .badCheck
  | .aborted => .failed .aborted
  | .overlong => .failed .tooLong
  | .good destination source kind payload =>
    if destination ≠ 0#8 ∨ source ≠ BitVec.ofNat 8 t.address then .failed .wrongSource
    else if kind ≠ t.job.replyKind then .failed .nak
    else
      match reportOf t.cls now payload with
      | some r => .accepted r
      | none => .failed .nak

/-! ## The station table -/

/-- The entry number of the used entry of a class and object, and the station (R52: there is at most one). -/
def Line.entryOf (l : Line) (c : StationClass) (object : Nat) : Option Nat :=
  l.stations.find fun e => e.elim false fun st => st.cls == c && st.object == object

/-- The station of a class and object. -/
def Line.station (l : Line) (c : StationClass) (object : Nat) : Option Station :=
  (l.entryOf c object).bind l.stations.used

/-- R52: whether an object is present. -/
def Line.enrolled (l : Line) (c : StationClass) (object : Nat) : Bool := (l.station c object).isSome

/-- The entry number of the used entry with an address. -/
def Line.entryAt (l : Line) (address : Nat) : Option Nat :=
  l.stations.find fun e => e.elim false fun st => st.address == address

/-- Whether the station of an object is in a state. -/
def Line.stationIs (l : Line) (c : StationClass) (object : Nat) (q : StationState) : Bool :=
  (l.station c object).elim false fun st => st.state == q

/-- Change the station of an object. -/
def Line.changeStation (l : Line) (c : StationClass) (object : Nat) (f : Station → Station) : Line :=
  match l.entryOf c object with
  | some i => { l with stations := l.stations.modify i fun e => e.map f }
  | none => l

/-! ## The command queue -/

/-- R57: whether a command of a rank may enter the queue. -/
def Line.hasRoom (l : Line) (r : Rank) : Bool :=
  decide (l.queue.length < Config.queueCap) &&
    (r == .safety || decide ((l.queue.filter fun c => c.rank != .safety).length < Config.plainCap))

/-- R57: whether a command that a console request offers may enter: room, and no member of its group waiting. -/
def Line.consoleRoom (l : Line) (r : Rank) : Bool :=
  l.hasRoom r && !(l.waiting.any fun c => (c.rank == .safety) == (r == .safety))

/-- R54, R59: a command that has room enters the queue, or ends at once where its station is lost or its object unnamed.
One whose station was removed while it waited ends REMOVED, though its object be enrolled again (R54). For every other the
station table at this moment decides, also where its station was LOST and came back while it waited (log entry 41). -/
def State.place (s : State) (c : Command) : State :=
  if c.removed then s.tell (.outcome c .removed)
  else
    match s.line.station c.order.cls c.object with
    | none => s.tell (.outcome c .removed)
    | some st =>
      if st.state == .lost then s.tell (.outcome c .noAnswer)
      else { s with line.queue := s.line.queue ++ [c] }

/-- R57, R59: a requester offers a command from its own event. -/
def State.offer (s : State) (o : Order) (object : Nat) (r : Rank) : State :=
  let c : Command := ⟨s.line.nextSerial, o, object, r, 0, false, false⟩
  let s := { s with line.nextSerial := s.line.nextSerial + 1 }
  let ends := (s.line.station o.cls object).elim true fun st => st.state == .lost
  if ends || s.line.hasRoom r then s.place c else { s with line.waiting := s.line.waiting ++ [c] }

/-- R57: examine waiting members, oldest first; those that may not enter stay. -/
def State.admitAll : List Command → State → State
  | [], s => s
  | c :: rest, s =>
    if s.line.hasRoom c.rank then State.admitAll rest (s.place c)
    else State.admitAll rest { s with line.waiting := s.line.waiting ++ [c] }

/-- R57: an entry has left the queue. -/
def State.admitWaiting (s : State) : State := State.admitAll s.line.waiting { s with line.waiting := [] }

/-- The queued command with a serial. -/
def Line.queued (l : Line) (serial : Nat) : Option Command := l.queue.find? fun c => c.serial == serial

/-- Whether a command waits for room. -/
def Line.waits (l : Line) (serial : Nat) : Bool := l.waiting.any fun c => c.serial == serial

/-- Whether a command can still be withdrawn or given up (R57, R58). -/
def Line.uncommitted (l : Line) (serial : Nat) : Bool :=
  l.waits serial || (l.queued serial).elim false fun c => !c.committed

/-- A transaction chosen and not begun for a command that leaves is chosen no more (R58; log entry 12). -/
def Line.dropChosen (l : Line) (serial : Nat) : Line :=
  match l.current with
  | some t =>
    if t.phase == .chosen && (match t.job with | .command n _ => n == serial | .poll => false) then
      { l with current := none }
    else l
  | none => l

/-- R57, R58: give up a waiting command, or withdraw a queued one that is not committed; a committed one stays. -/
def State.recall (s : State) (serial : Nat) : State :=
  if s.line.waits serial then { s with line.waiting := s.line.waiting.filter fun c => c.serial != serial }
  else if s.line.uncommitted serial then
    { s with line := { s.line with queue := s.line.queue.filter fun c => c.serial != serial }.dropChosen serial }.admitWaiting
  else s

/-- Recall every command that passes. -/
def State.recallAll (s : State) (p : Command → Bool) : State :=
  ((s.line.queue ++ s.line.waiting).filter p).foldl (fun s c => s.recall c.serial) s

/-- R59: commands that pass leave the queue with an outcome, oldest first, and their requesters are told. -/
def State.endOnly (s : State) (p : Command → Bool) (o : CommandOutcome) : State :=
  let gone := s.line.queue.filter p
  let s := { s with line.queue := s.line.queue.filter fun c => !p c }
  gone.foldl (fun s c => { s with line := s.line.dropChosen c.serial }.tell (.outcome c o)) s

/-- R59: commands that pass end with an outcome; then waiters are examined. Where several end in one step (R64), they all
leave before the waiters are examined, once (DESIGN CHOICE, log entry 44). -/
def State.endCommands (s : State) (p : Command → Bool) (o : CommandOutcome) : State :=
  if s.line.queue.any p then (s.endOnly p o).admitWaiting else s

/-- R109: waiting commands that pass end with an outcome, oldest first, and their requesters are told. -/
def State.endWaiting (s : State) (p : Command → Bool) (o : CommandOutcome) : State :=
  let gone := s.line.waiting.filter p
  let s := { s with line.waiting := s.line.waiting.filter fun c => !p c }
  gone.foldl (fun s c => s.tell (.outcome c o)) s

/-- Whether a command is for an object of a class. -/
def Command.isFor (c : Command) (k : StationClass) (object : Nat) : Bool := c.order.cls == k && c.object == object

/-- R54: the commands that wait for room for a station that is removed. -/
def Line.markRemoved (l : Line) (k : StationClass) (object : Nat) : Line :=
  { l with waiting := l.waiting.map fun c => if c.isFor k object then { c with removed := true } else c }

/-- Whether some command queued or waiting passes. -/
def Line.outstanding (l : Line) (p : Command → Bool) : Bool := l.queue.any p || l.waiting.any p

/-! ## Choosing the next transaction -/

/-- R60, step 2: the command of the highest class, the oldest among those. -/
def Line.pick (l : Line) : Option Command :=
  (l.queue.find? fun c => c.rank == .safety).or
    ((l.queue.find? fun c => c.rank == .sequence).or (l.queue.find? fun c => c.rank == .routine))

/-- R61: whether the station at an entry is eligible in a round. -/
def Line.eligible (l : Line) (round entry : Nat) : Bool :=
  (l.stations.used entry).elim false fun st => st.state != .lost || round == Config.lostRound

/-- R61: the next eligible entry from `entry` upward, `n` entries at most. -/
def Line.nextEligible (l : Line) (round entry : Nat) : Nat → Option Nat
  | 0 => none
  | n + 1 => if l.eligible round entry then some entry else Line.nextEligible l round (entry + 1) n

/-- R61: the entry to poll and the round it is found in, passing rounds without an eligible entry. -/
def Line.searchPoll (l : Line) (round pointer : Nat) : Nat → Option (Nat × Nat)
  | 0 => none
  | n + 1 =>
    match l.nextEligible round pointer (40 - pointer) with
    | some e => some (e, round)
    | none => Line.searchPoll l ((round + 1) % 8) 0 n

/-- R61: the pointer is left on the entry after `entry`; where it passes entry 39 the round ends. -/
def Line.movePointer (l : Line) (entry round : Nat) : Line :=
  if entry < 39 then { l with pointer := entry + 1, round := round } else { l with pointer := 0, round := (round + 1) % 8 }

/-- R60, R61: a poll chosen. -/
def Line.choosePoll (l : Line) : Option Line :=
  match l.searchPoll l.round l.pointer 9 with
  | some (e, round) =>
    (l.stations.used e).map fun st =>
      { l.movePointer e round with current := some ⟨.poll, st.cls, st.object, st.address, .chosen, false⟩ }
  | none => none

/-- R60: a command chosen. -/
def Line.chooseCommand (l : Line) : Option Line :=
  match l.pick with
  | some c =>
    (l.station c.order.cls c.object).map fun st =>
      { l with current := some ⟨.command c.serial c.order, st.cls, st.object, st.address, .chosen, false⟩ }
  | none => none

/-- R60, steps 2 to 5. -/
def Line.choose (l : Line) : Line :=
  (if l.sincePoll < Config.pollEvery then l.chooseCommand.or l.choosePoll
    else l.choosePoll.or l.chooseCommand).getD l

/-- R45, R56, R60: the chosen transaction begins: a command is committed, the count of commands moves. -/
def Line.begin (l : Line) (t : Transaction) : Line :=
  let l := { l with current := some { t with phase := .sending } }
  match t.job with
  | .poll => { l with sincePoll := 0 }
  | .command n _ =>
    { l with
      sincePoll := min (l.sincePoll + 1) Config.pollEvery
      queue := l.queue.map fun c => if c.serial == n then { c with committed := true } else c }

/-- R45: a chosen transaction begins on a quiet line. -/
def Line.beginChosen (l : Line) : Line :=
  match l.current with
  | some t => if t.phase == .chosen && !l.busy then l.begin t else l
  | none => l

/-- R60: the choice, when the part is READY, the line CLEAR and no transaction chosen or on the line. -/
def State.arbitrate (s : State) : State :=
  if s.loader.ready && !s.line.jammed && s.line.current.isNone then { s with line := s.line.choose.beginChosen }
  else { s with line := s.line.beginChosen }

/-! ## Line activity -/

/-- R65: a good frame has completed. -/
def Line.heardGood (l : Line) : Line :=
  { l with jamTimer := 0, busy := true, rx := .hunting, quietTimer := if l.jammed then 0 else l.quietTimer }

/-- R65: the line was busy for some intervals with no good frame. -/
def Line.heard (l : Line) (ms : Nat) (busyNow : Bool) : Line :=
  { l with
    jamTimer := if busyNow then l.jamTimer + ms else 0
    busy := busyNow
    rx := .hunting
    quietTimer := if l.jammed then 0 else l.quietTimer }

/-- R45: whether the part is sending or listening: events outside a transaction need neither. -/
def Line.onLine (l : Line) : Bool := l.current.elim false fun t => t.phase != .chosen

/-- R45: whether the part is sending: what its receiver then hears is discarded. -/
def Line.sending (l : Line) : Bool := l.current.elim false fun t => t.phase == .sending

/-- The listening transaction. -/
def Line.listening (l : Line) : Option Transaction := l.current.filter fun t => t.phase == .listening

/-- R65: the jam, which a busy line alone brings. The transaction in progress ends without fault; its command stays
committed in its place. -/
def lineJammed (s : State) : State :=
  if s.line.jammed || s.line.sending then s
  else
    { s with
      line.jammed := true
      line.jamTimer := max s.line.jamTimer 201
      line.quietTimer := 0
      line.jammedTenths := 0
      line.busy := true
      line.current := none
      line.rx := .hunting }.post .lineJammed []

/-- R66: the line becomes CLEAR. -/
def lineClear (s : State) : State :=
  if s.line.jammed then
    { s with
      line.jammed := false
      line.jamTimer := 0
      line.quietTimer := 100
      line.busy := false }.post .lineClear (be 2 s.line.jammedTenths)
  else s

/-- R45, R65: 2 ms of quiet. A sending part hears nothing (R45). -/
def lineQuiet (s : State) : State :=
  { s with
    line.jamTimer := 0
    line.busy := false
    line.quietTimer := if s.line.jammed then 2 else s.line.quietTimer }

/-- R49: the closing mark is out: the driver is released, the receiver hunts and listening begins. -/
def closingMarkSent (s : State) : State :=
  match s.line.current with
  | some t =>
    if t.phase == .sending then
      { s with line.current := some { t with phase := .listening }, line.rx := .hunting }
    else s
  | none => s

/-- R47: a good frame outside any transaction. -/
def frameOutside (s : State) (raw : List Byte) : State :=
  match s.line.onLine, endingOf (.bytes raw) with
  | false, some (.good _ _ _ _) => { s with line := s.line.heardGood }
  | _, _ => s

/-- R47, R65: a bad, runt, aborted or overlong frame, or a framing error, outside any transaction. -/
def badFrameOutside (s : State) (busyMs : Nat) (h : LineBytes) : State :=
  match s.line.onLine, endingOf h with
  | true, _ => s
  | false, some (.good _ _ _ _) => s
  | false, _ => { s with line := s.line.heard busyMs true }

/-! ## READ STATION -/

/-- R55: number of queued commands for a station. -/
def Line.queuedFor (l : Line) (st : Station) : Nat := (l.queue.filter fun c => c.isFor st.cls st.object).length

/-- R55: the DONE data for a used entry. -/
def Line.stationData (l : Line) (entry : Nat) (st : Station) : List Byte :=
  be 1 entry ++ be 1 st.address ++ be 1 st.cls.value ++ be 1 st.object ++ be 1 st.stage ++ be 1 st.state.value ++
    be 1 st.run ++ be 1 (flag st.lastGood.isSome) ++ stampBytes st.lastGood ++ be 1 (faultValue st.lastFault) ++
    be 1 (l.queuedFor st)

/-- R55: the line summary. Above 255 members of the waiting list the low 8 bits of their number are sent (log entry 38). -/
def Line.summary (l : Line) : List Byte :=
  be 1 (flag l.jammed) ++ be 1 (l.stations.cells.countP fun e => e.isSome) ++ be 1 l.queue.length ++
    be 1 (l.queue.countP fun c => c.rank == .safety) ++ be 1 l.waiting.length ++ be 1 l.sincePoll ++ be 1 l.round

/-- R55: READ STATION. -/
def ownReadStation (fields : List Nat) (s : State) : Answered :=
  let address := arg fields 1
  if 62 < address then (s, some (refuse .range 1))
  else if address == 0 then done s s.line.summary
  else
    match s.line.entryAt address with
    | none => (s, some (refuse .absent 1))
    | some e =>
      match s.line.stations.used e with
      | none => (s, some (refuse .absent 1))
      | some st => done s (s.line.stationData e st)

end Sys2Proof.Machine
end

