-- ==== Sys2Proof/Machine/Views.lean ====
section
/-! DEFINITION. What one block reads of another's records: state the spec names that other fields already fix. -/

namespace Sys2Proof.Machine

/-! ## Stages (07) -/

/-- The other input. -/
def Input.other : Input → Input
  | .a => .b
  | .b => .a

/-- R15: an input is coded 0 NONE, 1 A, 2 B. -/
def inputValue : Option Input → Nat
  | none => 0
  | some .a => 1
  | some .b => 2

/-- The set that an input of a stage names (R119). -/
def Stage.setOf (k : Stage) : Input → Option Nat
  | .a => k.inputA
  | .b => k.inputB

/-- R133: a changeover has not reached DEAD. -/
def ChangeStep.beforeDead : ChangeStep → Bool
  | .preparing => true
  | .boundary => true
  | .opening => true
  | .dead => false
  | .closing => false
  | .reverting => false

/-- The changeover context of a stage. -/
def Stage.context (k : Stage) : Option Changeover :=
  match k.state with
  | .changing c => some c
  | .unknown => none
  | .dark => none
  | .fed _ => none
  | .conflict => none

/-- R119: the active input. -/
def Stage.activeInput (k : Stage) : Option Input :=
  match k.state with
  | .fed i => some i
  | .changing c => if c.step.beforeDead then c.source else none
  | .unknown => none
  | .dark => none
  | .conflict => none

/-- R119: the active set. -/
def Stage.activeSet (k : Stage) : Option Nat := k.activeInput.bind k.setOf

/-- The active set of a FED stage. -/
def Stage.fedSet (k : Stage) : Option Nat :=
  match k.state with
  | .fed i => k.setOf i
  | .changing _ => none
  | .unknown => none
  | .dark => none
  | .conflict => none

/-- The outgoing set of a CHANGING stage (R119). -/
def Stage.outgoing (k : Stage) : Option Nat := k.context.bind fun c => c.source.bind k.setOf

/-- The incoming set of a CHANGING stage (R119). -/
def Stage.incoming (k : Stage) : Option Nat := k.context.bind fun c => k.setOf c.target

/-- Whether an input of a stage names a set. -/
def Stage.names (k : Stage) (set : Nat) : Bool := k.inputA == some set || k.inputB == some set

/-- A stage record. -/
def State.stage (s : State) (k : Nat) : Option Stage := s.stages.get k

/-- Whether some stage passes. -/
def State.anyStage (s : State) (p : Stage → Bool) : Bool := s.stages.cells.any p

/-- R71: the set is feeding. -/
def State.feeding (s : State) (set : Nat) : Bool := s.anyStage fun k => k.activeSet == some set

/-- Whether a stage is CHANGING. -/
def Stage.isChanging (k : Stage) : Bool := k.context.isSome

/-- R202: whether any stage is CHANGING. -/
def State.anyChanging (s : State) : Bool := s.anyStage Stage.isChanging

/-! ## Deliveries (06) -/

/-- R92: the open delivery of a channel. -/
def Channel.open_ (c : Channel) : Option Delivery :=
  match c.state with
  | .idle => none
  | .armed d => some d
  | .flowing d => some d
  | .halted d _ => some d
  | .settling d _ => some d
  | .heldLog _ _ => none

/-- R98: the set a channel outside IDLE targets. -/
def Channel.target (c : Channel) : Option Nat :=
  match c.state with
  | .idle => none
  | .armed d => some d.set
  | .flowing d => some d.set
  | .halted d _ => some d.set
  | .settling d _ => some d.set
  | .heldLog r _ => some r.set

/-- A channel record. -/
def State.channel (s : State) (c : Nat) : Option Channel := s.deliveries.channels.get c

/-- R92: the channel with a delivery open to a set. -/
def State.channelTo (s : State) (set : Nat) : Option Nat :=
  s.deliveries.channels.find fun c => (c.open_.map fun d => d.set) == some set

/-- R92: a delivery is open to a set. -/
def State.deliveryOpen (s : State) (set : Nat) : Bool := (s.channelTo set).isSome

/-- Whether a channel is IDLE. -/
def Channel.isIdle (c : Channel) : Bool :=
  match c.state with
  | .idle => true
  | .armed _ => false
  | .flowing _ => false
  | .halted _ _ => false
  | .settling _ _ => false
  | .heldLog _ _ => false

/-- R202: whether any channel is not IDLE. -/
def State.anyChannelBusy (s : State) : Bool := s.deliveries.channels.cells.any fun c => !c.isIdle

/-! ## Sets (05) -/

/-- A set record. -/
def State.set (s : State) (i : Nat) : Option SetRecord := s.sets.used i

/-- The lease of a set. -/
def State.lease (s : State) (i : Nat) : Option Lease := (s.set i).bind fun r => r.lease

/-- The marks of a set index. -/
def State.marksOf (s : State) (i : Nat) : Marks := (s.marks.get i).getD .reset

/-- The engine state of a set by name. -/
def State.setStateOf (s : State) (i : Nat) : Option EngineState := (s.set i).map fun r => r.state.name

/-- The level of a set's last report. -/
def SetRecord.level (r : SetRecord) : Nat := r.report.elim 0 fun x => x.level

/-- The level of the last report of a set index. -/
def State.levelOf (s : State) (i : Nat) : Nat := (s.set i).elim 0 SetRecord.level

/-- R91: the rate in use. -/
def State.rateInUse (s : State) (i : Nat) : Nat := (s.lease i).elim 0 fun l => l.measured.getD l.declared

/-- Leased sets, ascending. -/
def State.leasedSets (s : State) : List Nat := (List.range 12).filter fun i => (s.lease i).isSome

end Sys2Proof.Machine
end

