-- ==== Sys2Proof/Machine/Sets.lean ====
section
/-! DEFINITION. The Set monitor (05): engine states, reports, counters, and its requests but RELEASE SET (Periods). -/

namespace Sys2Proof.Machine

/-! ## Codes -/

/-- R84: coding of the states. -/
def EngineState.value : EngineState → Nat
  | .unknown => 0
  | .stopped => 1
  | .cranking => 2
  | .warming => 3
  | .online => 4
  | .cooling => 5
  | .faulted => 6
  | .lost => 7

/-- R84: coding of the causes. -/
def FaultCause.value : FaultCause → Nat
  | .noStart => 1
  | .shutdown => 2
  | .stoppedLocally => 3
  | .offWhileFeeding => 4
  | .stopFailed => 5

/-- R84: the cause, 0 when the state is not FAULTED. -/
def SetState.causeValue : SetState → Nat
  | .faulted c => c.value
  | .unknown => 0
  | .stopped => 0
  | .cranking _ _ => 0
  | .warming => 0
  | .online => 0
  | .cooling => 0
  | .lost _ => 0

/-- Section 4.4: coding of the engine. -/
def Engine.value : Engine → Nat
  | .off => 0
  | .cranking => 1
  | .running => 2
  | .shutdown => 3

/-! ## Counters -/

/-- A counter of `w` bits that saturates (05, section 5.1). -/
def satAdd {w : Nat} (x : BitVec w) (n : Nat) : BitVec w := BitVec.ofNat w (min (x.toNat + n) (2 ^ w - 1))

/-- R88: a second of runtime. -/
def Counters.second (c : Counters) : Counters := { c with runtime := satAdd c.runtime 1 }
/-- R90, R92: burn in dL. -/
def Counters.burn (c : Counters) (n : Nat) : Counters := { c with burned := satAdd c.burned n }
/-- R89: energy out in Wh. -/
def Counters.out (c : Counters) (n : Nat) : Counters := { c with energy := satAdd c.energy n }
/-- R76: a start. -/
def Counters.start (c : Counters) : Counters := { c with starts := satAdd c.starts 1 }
/-- R72: a gap. -/
def Counters.gap (c : Counters) : Counters := { c with gaps := satAdd c.gaps 1 }

/-- Each counter has a total and a current-period value: both count. -/
def Lease.count (l : Lease) (f : Counters → Counters) : Lease := { l with total := f l.total, current := f l.current }

/-- Count on the lease, where there is one. -/
def SetRecord.count (r : SetRecord) (f : Counters → Counters) : SetRecord :=
  { r with lease := r.lease.map fun l => l.count f }

/-! ## Changes of state -/

/-- Change a set record. -/
def State.changeSet (s : State) (i : Nat) (f : SetRecord → SetRecord) : State :=
  { s with sets := s.sets.modify i fun r => r.map f }

/-- R84: a set changes state: its timer is cancelled (R74), pending marks cleared, SET STATE posted and the Feed
sequencer told. -/
def State.enterSet (s : State) (i : Nat) (q : SetState) : State :=
  match s.set i with
  | none => s
  | some r =>
    ((s.changeSet i fun r =>
        { r with state := q, clearPending := false, startPending := false, timer := none, awaited := none }).post
      .setState (be 1 i ++ be 1 q.name.value ++ be 1 r.state.name.value ++ be 1 q.causeValue)).tell (.setChanged i)

/-- Start a timer of a set (R30). -/
def State.startSetTimer (s : State) (i : Nat) (k : SetTimerKind) (tenths : Nat) : State :=
  s.changeSet i fun r => { r with timer := some ⟨k, tenths⟩ }

/-- Offer an engine command whose outcome the set waits for (R77, R80). -/
def State.offerAwaited (s : State) (i : Nat) (o : Order) : State :=
  (s.changeSet i fun r => { r with awaited := some s.line.nextSerial }).offer o i .routine

/-- Whether a command is a START ENGINE or STOP ENGINE of a set. -/
def Command.isEngine (c : Command) (i : Nat) : Bool :=
  (c.order == .startEngine || c.order == .stopEngine) && c.object == i

/-- R74: withdraw or give up the set's uncommitted START ENGINE and STOP ENGINE. -/
def State.recallEngine (s : State) (i : Nat) : State := s.recallAll fun c => c.isEngine i

/-- Whether leaving a state for FAULTED recalls the engine commands (R74). -/
def EngineState.recallsOnFault : EngineState → Bool
  | .cranking => true
  | .warming => true
  | .online => true
  | .cooling => true
  | .unknown => false
  | .stopped => false
  | .faulted => false
  | .lost => false

/-- R74, R81: a set that was not FAULTED becomes FAULTED; cause SHUTDOWN offers a SAFETY STOP ENGINE. -/
def State.faultSet (s : State) (i : Nat) (cause : FaultCause) : State :=
  let s := if (s.setStateOf i).elim false EngineState.recallsOnFault then s.recallEngine i else s
  let s := s.enterSet i (.faulted cause)
  if cause == .shutdown then s.offer .stopEngine i .safety else s

/-- R71: warm-up time in tenths of a second. -/
def SetRecord.warmUpTenths (r : SetRecord) : Nat := 10 * r.lease.elim Config.warmUpDefault fun l => l.warmUp
/-- R71: cool-down time in tenths of a second. -/
def SetRecord.coolDownTenths (r : SetRecord) : Nat := 10 * r.lease.elim Config.coolDownDefault fun l => l.coolDown

/-- R76: a report makes the set WARMING: the warm-up timer starts and one start is counted. -/
def State.warmSet (s : State) (i : Nat) : State :=
  match s.set i with
  | none => s
  | some r =>
    ((s.enterSet i .warming).startSetTimer i .warmUp r.warmUpTenths).changeSet i fun r => r.count Counters.start

/-- R72, R74: a report of CRANKING starts attempt 1 with the crank timer. -/
def State.crankingSeen (s : State) (i : Nat) : State :=
  (s.enterSet i (.cranking 1 .crank)).startSetTimer i .crank Config.crankTenths

/-- R75, R78: a start from STOPPED. -/
def State.startFromStopped (s : State) (i : Nat) : State :=
  (s.enterSet i (.cranking 1 .crank)).offerAwaited i .startEngine

/-- Withdraw or give up the command whose outcome the set waits for. -/
def State.recallAwaited (s : State) (i : Nat) : State :=
  match (s.set i).bind fun r => r.awaited with
  | some n => s.recall n
  | none => s

/-- Whether the command the set waits for can still be withdrawn or given up. -/
def State.awaitsUncommitted (s : State) (i : Nat) : Bool :=
  ((s.set i).bind fun r => r.awaited).elim false s.line.uncommitted

/-- R80: the set reaches STOPPED from COOLING; a pending start order starts it at once (R78). -/
def State.reachStopped (s : State) (i : Nat) : State :=
  let pending := (s.set i).elim false fun r => r.startPending
  let s := (s.recallAwaited i).enterSet i .stopped
  if pending then s.startFromStopped i else s

/-- R75, R78: whether a COOLING set can return to ONLINE. -/
def State.coolingReturns (s : State) (i : Nat) : Bool :=
  (s.set i).elim false (fun r => r.timer.isSome) || s.awaitsUncommitted i

/-- R75, R78: a COOLING set returns to ONLINE. -/
def State.returnOnline (s : State) (i : Nat) : State := (s.recallAwaited i).enterSet i .online

/-- R78: a start order of the Feed sequencer. -/
def State.startOrder (s : State) (i : Nat) : State :=
  match s.setStateOf i with
  | some .stopped => s.startFromStopped i
  | some .cooling =>
    if s.coolingReturns i then s.returnOnline i else s.changeSet i fun r => { r with startPending := true }
  | some .unknown => s
  | some .cranking => s
  | some .warming => s
  | some .online => s
  | some .faulted => s
  | some .lost => s
  | none => s

/-- R78: the Feed sequencer cancels a start order pending. -/
def State.cancelStartOrder (s : State) (i : Nat) : State := s.changeSet i fun r => { r with startPending := false }

/-- R73: the set has become feeding. -/
def State.becomeFeeding (s : State) (i : Nat) : State :=
  match s.setStateOf i with
  | some .stopped => (s.recallEngine i).faultSet i .offWhileFeeding
  | some .cranking => s.faultSet i .offWhileFeeding
  | some .warming => s.enterSet i .online
  | some .cooling => s.returnOnline i
  | some .unknown => s
  | some .online => s
  | some .faulted => s
  | some .lost => s
  | none => s

/-- R83: the set's station is lost. -/
def State.setLost (s : State) (i : Nat) : State :=
  match s.set i with
  | none => s
  | some r =>
    if r.state.name == .lost then s
    else
      { s with line.waiting := s.line.waiting.filter fun c => !c.isFor .set i }.enterSet i (.lost r.state.name)

/-! ## Reports -/

/-- R72: the state by the engine field, for a set in UNKNOWN or LOST; `cranked`: it leaves LOST with previous state
CRANKING. -/
def State.resyncSet (s : State) (i : Nat) (e : Engine) (cranked : Bool) : State :=
  match e with
  | .running => if cranked && !s.feeding i then s.warmSet i else s.enterSet i .online
  | .off => if s.feeding i then s.faultSet i .offWhileFeeding else s.enterSet i .stopped
  | .shutdown => s.faultSet i .shutdown
  | .cranking => if s.feeding i then s.faultSet i .offWhileFeeding else s.crankingSeen i

/-- R74, R76: RUNNING reported in CRANKING. -/
def State.runningInCranking (s : State) (i : Nat) (phase : CrankPhase) (timed : Bool) : State :=
  if phase == .crank || timed || s.awaitsUncommitted i then (s.recallAwaited i).warmSet i else s

/-- R70, step 1; R72, R74. -/
def State.judgeEngine (s : State) (i : Nat) (r : SetRecord) (e : Engine) : State :=
  match r.state, e with
  | .unknown, _ => s.resyncSet i e false
  | .lost previous, _ =>
    let ran := e == .running && (r.report.elim false fun x => x.engine == .running)
    let s := if ran then s.changeSet i fun r => r.count Counters.gap else s
    s.resyncSet i e (previous == .cranking)
  | .stopped, .off => s
  | .stopped, .cranking => s.crankingSeen i
  | .stopped, .running => s.warmSet i
  | .stopped, .shutdown => s.faultSet i .shutdown
  | .cranking _ _, .off => s
  | .cranking _ _, .cranking => s
  | .cranking _ phase, .running => s.runningInCranking i phase r.timer.isSome
  | .cranking _ _, .shutdown => s.faultSet i .shutdown
  | .warming, .off => s.faultSet i .stoppedLocally
  | .warming, .cranking => s.faultSet i .stoppedLocally
  | .warming, .running => s
  | .warming, .shutdown => s.faultSet i .shutdown
  | .online, .off => s.faultSet i .stoppedLocally
  | .online, .cranking => s.faultSet i .stoppedLocally
  | .online, .running => s
  | .online, .shutdown => s.faultSet i .shutdown
  | .cooling, .off => s.reachStopped i
  | .cooling, .cranking => s
  | .cooling, .running => s
  | .cooling, .shutdown => s.faultSet i .shutdown
  | .faulted _, _ => s

/-- R89: the energy delta of a report against the last one. -/
def energyDelta (last : Option SetReport) (x : SetReport) : Option Word32 := last.map fun l => x.energy - l.energy

/-- R90: the burn that a level shows against the reference, with no delivery open. -/
def burnOf (reference : Option Nat) (level : Nat) : Nat := (reference.getD level) - level

/-- R90: the reference after a level, with no delivery open. -/
def referenceAfter (reference : Option Nat) (level : Nat) : Nat :=
  match reference with
  | none => level
  | some f => if level < f ∨ f + 100 < level then level else f

/-- R91: the measured rate that a complete window gives. -/
def windowRate (burn energy : Nat) : Nat := max 50 (min 2000 (burn * 100000 / energy))

/-- R91: a report's burn and energy go into the rate window; a complete window gives the measured rate. -/
def Lease.window (l : Lease) (burn energy : Nat) : Lease :=
  let b := l.windowBurn + burn
  let e := l.windowEnergy + energy
  if 50000 ≤ e then { l with measured := some (windowRate b e), windowBurn := 0, windowEnergy := 0 }
  else { l with windowBurn := b, windowEnergy := e }

/-- R89, R90, R91: a record's counters, reference and window after a report; `delivery`: a delivery is open (R92). -/
def SetRecord.measure (r : SetRecord) (x : SetReport) (delivery : Bool) : SetRecord :=
  let energy := (energyDelta r.report x).elim 0 fun d => d.toNat
  let r := r.count fun c => c.out energy
  if delivery then { r with reference := some (r.reference.getD x.level) }
  else
    let burn := burnOf r.reference x.level
    let r := { r with reference := some (referenceAfter r.reference x.level) }
    let r := r.count fun c => c.burn burn
    { r with lease := r.lease.map fun l => l.window burn energy }

/-- R90: an unexplained rise. -/
def unexplained (reference : Option Nat) (level : Nat) : Option Nat := reference.filter fun f => decide (f + 100 < level)

/-- R70, steps 2 and 3: energy and fuel. -/
def State.judgeFuel (s : State) (i : Nat) (x : SetReport) : State :=
  match s.set i with
  | none => s
  | some r =>
    let delivery := s.deliveryOpen i
    let s := s.changeSet i fun r => r.measure x delivery
    match if delivery then none else unexplained r.reference x.level with
    | some f => s.post .unexplainedRise (be 1 i ++ be 2 f ++ be 2 x.level)
    | none => s

/-- Section 4.4: bit 4 of the alarm word is LOW FUEL SWITCH. -/
def lowFuelSwitch (alarm : Byte) : Bool := bitOf alarm.toNat 4

/-- R87, R70 step 4: fuel-low. -/
def State.judgeFuelLow (s : State) (i : Nat) (x : SetReport) : State :=
  match s.set i with
  | none => s
  | some r =>
    let m := s.marksOf i
    let switch := lowFuelSwitch x.alarm
    if !r.fuelLow && (decide (x.level < m.low) || switch) then
      ((s.changeSet i fun r => { r with fuelLow := true }).post .fuelLow (be 1 i ++ be 2 x.level ++ be 1 (flag switch))).tell
        (.fuelLowRaised i [])
    else if r.fuelLow && decide (m.lowClear ≤ x.level) && !switch then
      ((s.changeSet i fun r => { r with fuelLow := false }).post .fuelLowClear (be 1 i ++ be 2 x.level)).tell
        (.fuelLowCleared i)
    else s

/-- R85, R70 step 5: the alarm latch. -/
def State.judgeAlarm (s : State) (i : Nat) (x : SetReport) : State :=
  match s.set i with
  | none => s
  | some r =>
    if x.alarm != r.snapshot && !r.latchHeld then
      (s.changeSet i fun r => { r with snapshot := x.alarm, latchHeld := true }).post .alarmChange
        (be 1 i ++ [x.alarm, r.snapshot])
    else s

/-- R70: a SET report applied. -/
def State.applySetReport (s : State) (i : Nat) (x : SetReport) : State :=
  match s.set i with
  | none => s
  | some r =>
    ((((s.judgeEngine i r x.engine).judgeFuel i x).judgeFuelLow i x).judgeAlarm i x).changeSet i fun r =>
      { r with report := some x }

/-- R90, R92: the Delivery unit closes a delivery to the set. -/
def State.deliveryClosedTo (s : State) (i : Nat) (estimate : Nat) : State :=
  s.changeSet i fun r => { r.count (fun c => c.burn estimate) with reference := r.report.elim r.reference fun x => some x.level }

/-! ## Outcomes of engine commands -/

/-- R76, R77: START ENGINE ended. -/
def State.startEnded (s : State) (i attempt : Nat) (o : CommandOutcome) : State :=
  match o with
  | .done => (s.changeSet i fun r => { r with awaited := none }).startSetTimer i .crank Config.crankTenths
  | .noAnswer =>
    (s.changeSet i fun r => { r with state := .cranking attempt .rest, awaited := none }).startSetTimer i .crankRest
      Config.crankRestTenths
  | .removed => s

/-- R77: the crank STOP ENGINE ended. -/
def State.crankStopEnded (s : State) (i : Nat) (o : CommandOutcome) : State :=
  match o with
  | .done => (s.changeSet i fun r => { r with awaited := none }).startSetTimer i .crankRest Config.crankRestTenths
  | .noAnswer => s.faultSet i .stopFailed
  | .removed => s

/-- R80: the STOP ENGINE of a COOLING set ended, and the set is still COOLING. -/
def State.coolStopEnded (s : State) (i : Nat) (o : CommandOutcome) : State :=
  match o with
  | .done => s.offerAwaited i .stopEngine
  | .noAnswer => s.faultSet i .stopFailed
  | .removed => s

/-- R82: CLEAR SHUTDOWN ended DONE: the FAULTED set is judged from the report that EXECUTED carried. -/
def State.clearJudged (s : State) (i : Nat) (e : Engine) : State :=
  let fault (c : FaultCause) := s.changeSet i fun r => { r with state := .faulted c }
  match e with
  | .running => s.enterSet i .online
  | .off => if s.feeding i then fault .offWhileFeeding else s.enterSet i .stopped
  | .shutdown => fault .shutdown
  | .cranking => if s.feeding i then fault .offWhileFeeding else s.crankingSeen i

/-- R82: CLEAR SHUTDOWN ended. -/
def State.clearEnded (s : State) (i : Nat) (r : SetRecord) (o : CommandOutcome) : State :=
  let s := s.changeSet i fun r => { r with clearPending := false, awaited := none }
  match o, r.report with
  | .done, some x => s.clearJudged i x.engine
  | .done, none => s
  | .noAnswer, _ => s
  | .removed, _ => s

/-- R76, R77, R80, R82: an engine command ended; outcomes the set does not wait for are discarded. -/
def State.engineOutcome (s : State) (c : Command) (o : CommandOutcome) : State :=
  match s.set c.object with
  | none => s
  | some r =>
    if r.awaited == some c.serial then
      match r.state, c.order with
      | .cranking n .crank, .startEngine => s.startEnded c.object n o
      | .cranking _ .rest, .stopEngine => s.crankStopEnded c.object o
      | .cooling, .stopEngine => s.coolStopEnded c.object o
      | .faulted _, .clearShutdown => s.clearEnded c.object r o
      | _, _ => s
    else s

/-! ## Timers -/

/-- Whether a set's timer of a kind has expired. -/
def SetRecord.expired (r : SetRecord) (k : SetTimerKind) : Bool := r.timer == some ⟨k, 0⟩

/-- R77: the crank timer expires. -/
def crankTimerExpiry (s : State) (i : Nat) : State :=
  match s.set i with
  | none => s
  | some r =>
    match r.state with
    | .cranking n .crank =>
      if r.expired .crank then
        (s.changeSet i fun r => { r with state := .cranking n .rest, timer := none }).offerAwaited i .stopEngine
      else s
    | _ => s

/-- R77: the crank rest timer expires. -/
def crankRestExpiry (s : State) (i : Nat) : State :=
  match s.set i with
  | none => s
  | some r =>
    match r.state with
    | .cranking n .rest =>
      if r.expired .crankRest then
        if 3 ≤ n then s.faultSet i .noStart
        else
          (s.changeSet i fun r => { r with state := .cranking (n + 1) .crank, timer := none }).offerAwaited i .startEngine
      else s
    | _ => s

/-- R76: the warm-up timer expires. -/
def warmUpExpiry (s : State) (i : Nat) : State :=
  if (s.set i).elim false fun r => r.state == .warming && r.expired .warmUp then s.enterSet i .online else s

/-- R80: the cool-down timer expires. -/
def coolDownExpiry (s : State) (i : Nat) : State :=
  if (s.set i).elim false fun r => r.state == .cooling && r.expired .coolDown then
    (s.changeSet i fun r => { r with timer := none }).offerAwaited i .stopEngine
  else s

/-- R88: whether a set counts runtime. -/
def SetRecord.runs (r : SetRecord) : Bool :=
  (r.report.elim false fun x => x.engine == .running) &&
    (r.state.name == .warming || r.state.name == .online || r.state.name == .cooling)

/-- R88: a whole second of the time base, where one is due (log entry 3). -/
def wholeSecond (s : State) : State :=
  if 10 ≤ s.tenths then
    { s with
      tenths := s.tenths - 10
      sets := s.sets.map fun r => r.map fun r => if r.runs then r.count Counters.second else r }
  else s

/-! ## Requests -/

/-- The checks on a set index: range, record (R69). -/
def setChecks (s : State) (i : Nat) : List (Bool × Reply) :=
  [(decide (11 < i), refuse .range 1), ((s.set i).isNone, refuse .absent 1)]

/-- R75: START SET. -/
def ownStartSet (fields : List Nat) (s : State) : Answered :=
  let i := arg fields 1
  unlessRefused s
    (setChecks s i ++
      [denied (s.windows.deniesSet .crew i) 1, ((s.lease i).isNone, refuse .notLeased 1)])
    (match s.setStateOf i with
      | some .stopped =>
        if s.line.consoleRoom .routine then done (s.startFromStopped i) [] else (s, some (refuse .busy 0))
      | some .cooling => if s.coolingReturns i then done (s.returnOnline i) [] else (s, some (refuse .state 1))
      | _ => (s, some (refuse .state 1)))

/-- R79: whether a stage keeps a set from being stopped. -/
def Stage.usesSet (k : Stage) (i : Nat) : Bool :=
  k.fedSet == some i || k.outgoing == some i || k.incoming == some i

/-- R79: STOP SET. -/
def ownStopSet (fields : List Nat) (s : State) : Answered :=
  let i := arg fields 1
  let state := s.setStateOf i
  unlessRefused s
    (setChecks s i ++
      [denied (s.windows.deniesSet .crew i) 1, (s.anyStage fun k => k.usesSet i, refuse .state 1),
        (!(state == some .online || state == some .warming), refuse .state 1)])
    (done
      ((s.enterSet i .cooling).startSetTimer i .coolDown
        ((s.set i).elim (10 * Config.coolDownDefault) SetRecord.coolDownTenths)) [])

/-- R82: CLEAR FAULT. -/
def ownClearFault (fields : List Nat) (s : State) : Answered :=
  let i := arg fields 1
  unlessRefused s
    (setChecks s i ++
      [denied (s.windows.deniesSet .crew i) 1, (s.setStateOf i != some .faulted, refuse .state 1),
        ((s.set i).elim false (fun r => r.clearPending), refuse .state 1),
        (s.anyStage fun k => k.fedSet == some i, refuse .state 1),
        (!s.line.consoleRoom .routine, refuse .busy 0)])
    (done ((s.changeSet i fun r => { r with clearPending := true }).offerAwaited i .clearShutdown) [])

/-- R85: ACK ALARMS. -/
def ownAckAlarms (fields : List Nat) (s : State) : Answered :=
  let i := arg fields 1
  let word : Byte := ((s.set i).bind fun r => r.report).elim 0 fun x => x.alarm
  unlessRefused s (setChecks s i)
    (done (s.changeSet i fun r => { r with snapshot := word, latchHeld := false }) [word])

/-- R86: the index of the first mark out of order. -/
def Marks.firstBad (m : Marks) (capacity : Option Nat) : Option Nat :=
  if m.lowClear ≤ m.low then some 3
  else if m.highClear ≤ m.lowClear then some 4
  else if m.high ≤ m.highClear || capacity.elim false fun c => decide (c < m.high) then some 5
  else none

/-- R86: SET MARKS. -/
def ownSetMarks (fields : List Nat) (s : State) : Answered :=
  let i := arg fields 1
  let m : Marks := ⟨arg fields 2, arg fields 3, arg fields 4, arg fields 5⟩
  let bad := m.firstBad ((s.lease i).map fun l => l.capacity)
  unlessRefused s (setChecks s i ++ [(bad.isSome, refuse .range (bad.getD 0))]) (done { s with marks := s.marks.set i m } [])

/-- R93: whether a time is neither 0 nor in a range. -/
def badTime (t low high : Nat) : Bool := t != 0 && (decide (t < low) || decide (high < t))

/-- R93: LEASE SET. -/
def ownLeaseSet (fields : List Nat) (s : State) : Answered :=
  let i := arg fields 1
  let capacity := arg fields 5
  let declared := arg fields 6
  let warmUp := arg fields 7
  let coolDown := arg fields 8
  unlessRefused s
    (setChecks s i ++
      [denied (s.windows.deniesSet .office i) 1, ((s.lease i).isSome, refuse .conflict 1),
        (arg fields 4 == 0, refuse .range 4),
        (capacity == 0 || decide (capacity < (s.marksOf i).high), refuse .range 5),
        (decide (declared < 100) || decide (2000 < declared), refuse .range 6),
        (badTime warmUp 30 600, refuse .range 7), (badTime coolDown 60 900, refuse .range 8)])
    (done
      (s.changeSet i fun r =>
        { r with
          lease :=
            some
              { vendor := arg fields 2
                hire := arg fields 3
                rating := arg fields 4
                capacity := capacity
                declared := declared
                warmUp := if warmUp == 0 then Config.warmUpDefault else warmUp
                coolDown := if coolDown == 0 then Config.coolDownDefault else coolDown
                stamp := s.now
                total := .zero
                current := .zero
                measured := none
                windowBurn := 0
                windowEnergy := 0 } }) [])

/-! ## READ SET -/

/-- R95: previous state (0 unless LOST). -/
def SetState.previousValue : SetState → Nat
  | .lost p => p.value
  | .unknown => 0
  | .stopped => 0
  | .cranking _ _ => 0
  | .warming => 0
  | .online => 0
  | .cooling => 0
  | .faulted _ => 0

/-- R95: crank attempt (0 unless CRANKING). -/
def SetState.attemptValue : SetState → Nat
  | .cranking n _ => n
  | .unknown => 0
  | .stopped => 0
  | .warming => 0
  | .online => 0
  | .cooling => 0
  | .faulted _ => 0
  | .lost _ => 0

/-- R95: crank phase REST. -/
def SetState.resting : SetState → Bool
  | .cranking _ p => p == .rest
  | .unknown => false
  | .stopped => false
  | .warming => false
  | .online => false
  | .cooling => false
  | .faulted _ => false
  | .lost _ => false

/-- R95: the last report, zeros when absent. -/
def setReportBytes : Option SetReport → List Byte
  | some x =>
    be 1 x.engine.value ++ [x.alarm] ++ be 2 x.level ++ be 4 x.energy.toNat ++ be 2 x.power ++ x.stamp.bytes
  | none => List.replicate 14 0

/-- The marks as bytes. -/
def Marks.bytes (m : Marks) : List Byte := be 2 m.low ++ be 2 m.lowClear ++ be 2 m.highClear ++ be 2 m.high

/-- R95: the lease fields from the terms through the window, zeros when no lease is present (log entry 40 for an absent
measured rate of a lease). -/
def leaseBytes (rate : Nat) : Option Lease → List Byte
  | some l =>
    be 2 l.vendor ++ be 4 l.hire ++ be 2 l.rating ++ be 2 l.capacity ++ be 2 l.declared ++ be 2 l.warmUp ++
      be 2 l.coolDown ++ l.stamp.bytes ++
      be 4 l.total.runtime.toNat ++ be 4 l.current.runtime.toNat ++
      be 4 l.total.burned.toNat ++ be 4 l.current.burned.toNat ++
      be 4 l.total.energy.toNat ++ be 4 l.current.energy.toNat ++
      be 2 l.total.starts.toNat ++ be 2 l.current.starts.toNat ++
      be 2 l.total.gaps.toNat ++ be 2 l.current.gaps.toNat ++
      be 1 (flag l.measured.isSome) ++ be 2 (l.measured.getD 0) ++ be 4 l.windowBurn ++ be 4 l.windowEnergy ++ be 2 rate
  | none => List.replicate 65 0

/-- R95: the flags byte. -/
def SetRecord.flags (r : SetRecord) (delivery : Bool) : Nat :=
  flagBits
    [r.clearPending, r.startPending, r.state.resting, r.fuelLow, r.latchHeld, r.report.isSome, r.reference.isSome, delivery]

/-- R95: the DONE data of READ SET. -/
def State.setData (s : State) (i : Nat) (r : SetRecord) : List Byte :=
  be 1 i ++ be 1 r.state.name.value ++ be 1 r.state.previousValue ++ be 1 r.state.causeValue ++
    be 1 r.state.attemptValue ++ be 1 (r.flags (s.deliveryOpen i)) ++ setReportBytes r.report ++ [r.snapshot] ++
    be 2 (r.reference.getD 0) ++ (s.marksOf i).bytes ++ be 1 (flag r.lease.isSome) ++ leaseBytes (s.rateInUse i) r.lease

/-- R95: READ SET. -/
def ownReadSet (fields : List Nat) (s : State) : Answered :=
  let i := arg fields 1
  unlessRefused s (setChecks s i) (done s (s.setData i ((s.set i).getD .fresh)))

end Sys2Proof.Machine
end

