-- ==== Sys2Proof/Machine/Deliveries.lean ====
section
/-! DEFINITION. The Delivery unit (06): tickets, the pump, settling, reconciliation, the delivery log. -/

namespace Sys2Proof.Machine

/-! ## Codes -/

/-- R101: coding of the halt causes. -/
def HaltCause.value : HaltCause → Nat
  | .highMark => 1
  | .hold => 2
  | .gaugeLost => 3

/-- R113: coding of the outcomes. -/
def DeliveryOutcome.value : DeliveryOutcome → Nat
  | .complete => 1
  | .short => 2
  | .cancelled => 3
  | .meterLost => 4

/-- R117: coding of the channel states. -/
def ChannelState.value : ChannelState → Nat
  | .idle => 0
  | .armed _ => 1
  | .flowing _ => 2
  | .halted _ _ => 3
  | .settling _ _ => 4
  | .heldLog _ _ => 5

/-! ## Channels -/

/-- Change a channel record. -/
def State.changeChannel (s : State) (c : Nat) (f : Channel → Channel) : State :=
  { s with deliveries.channels := s.deliveries.channels.modify c f }

/-- A channel takes a state. -/
def State.setChannel (s : State) (c : Nat) (q : ChannelState) : State := s.changeChannel c fun x => { x with state := q }

/-- Change the open delivery that a channel state holds. -/
def ChannelState.change (q : ChannelState) (f : Delivery → Delivery) : ChannelState :=
  match q with
  | .idle => .idle
  | .armed d => .armed (f d)
  | .flowing d => .flowing (f d)
  | .halted d cause => .halted (f d) cause
  | .settling d left => .settling (f d) left
  | .heldLog r rank => .heldLog r rank

/-- The state of a channel. -/
def State.channelState (s : State) (c : Nat) : Option ChannelState := (s.channel c).map fun x => x.state

/-- Change the open delivery of a channel. -/
def State.changeDelivery (s : State) (c : Nat) (f : Delivery → Delivery) : State :=
  s.changeChannel c fun x => { x with state := x.state.change f }

/-- The open delivery of a channel. -/
def State.delivery (s : State) (c : Nat) : Option Delivery := (s.channel c).bind Channel.open_

/-! ## The pump -/

/-- Whether a command is a pump command of a channel. -/
def Command.isPump (k : Command) (o : Order) (c : Nat) : Bool := k.order == o && k.object == c

/-- R98: PUMP RUN outstanding. -/
def State.runOutstanding (s : State) (c : Nat) : Bool := s.line.outstanding fun k => k.isPump .pumpRun c

/-- R98: PUMP HALT outstanding. -/
def State.haltOutstanding (s : State) (c : Nat) : Bool := s.line.outstanding fun k => k.isPump .pumpHalt c

/-- R102: a PUMP RUN of the channel is queued and not committed. -/
def State.runWithdrawable (s : State) (c : Nat) : Bool := s.line.queue.any fun k => k.isPump .pumpRun c && !k.committed

/-- R102: stopping the pump would offer a PUMP HALT. -/
def State.needsHalt (s : State) (c : Nat) : Bool := !s.runWithdrawable c && !s.haltOutstanding c

/-- A PUMP HALT is offered for the ticket of a channel. -/
def State.offerHalt (s : State) (c : Nat) : State :=
  (s.changeDelivery c fun d => { d with halt := some s.line.nextSerial }).offer .pumpHalt c .safety

/-- R102: stopping the pump. -/
def State.stopPump (s : State) (c : Nat) : State :=
  if s.runWithdrawable c then
    let runs := s.line.queue.filter fun k => k.isPump .pumpRun c && !k.committed
    runs.foldl (fun s k => s.recall k.serial) (s.changeDelivery c fun d => { d with haltConfirmed := true })
  else if s.haltOutstanding c then s
  else s.offerHalt c

/-- R102: running the pump. -/
def State.runPump (s : State) (c : Nat) : State :=
  let outstanding := s.runOutstanding c
  let s := s.changeDelivery c fun d => { d with haltConfirmed := false }
  if outstanding then s else s.offer .pumpRun c .routine

/-- R101: a channel enters HALTED and DELIVERY HALTED is posted. -/
def State.haltChannel (s : State) (c : Nat) (d : Delivery) (cause : HaltCause) : State :=
  (s.setChannel c (.halted d cause)).post .deliveryHalted
    (be 1 c ++ be 4 d.ticket ++ be 1 d.set ++ be 1 cause.value ++ be 2 (s.levelOf d.set) ++ be 4 d.delivered.toNat ++
      be 1 d.highHalts.toNat)

/-- R110: a channel enters SETTLING. -/
def State.settleChannel (s : State) (c : Nat) (d : Delivery) : State := s.setChannel c (.settling d Config.settleTenths)

/-- Stop the pump, then go on with the delivery as it then stands. -/
def State.stopThen (s : State) (c : Nat) (k : State → Delivery → State) : State :=
  let s := s.stopPump c
  match s.delivery c with
  | some d => k s d
  | none => s

/-! ## Bowser reports -/

/-- R100: delivered after a report. -/
def Delivery.metered (d : Delivery) (x : BowserReport) : Delivery := { d with delivered := x.count - d.meterStart }

/-- R100: delivered has reached ordered. -/
def Delivery.reached (d : Delivery) : Bool := decide (d.ordered ≤ d.delivered.toNat)

/-- R100: a report judged as in FLOWING. -/
def State.judgeFlow (s : State) (c : Nat) (d : Delivery) : State :=
  if d.reached then (s.setChannel c (.flowing d)).stopThen c fun s d => s.settleChannel c d
  else s.setChannel c (.flowing d)

/-- R103: a pump seen RUNNING in HALTED or SETTLING with no PUMP RUN outstanding is stopped. -/
def State.judgeRunning (s : State) (c : Nat) (x : BowserReport) : State :=
  if x.running && !s.runOutstanding c then (s.changeDelivery c fun d => { d with haltConfirmed := false }).stopPump c
  else s

/-- R100: a bowser report reaches its channel. One that itself takes the channel to SETTLING is not also judged for a
running pump (log entry 30). -/
def State.applyBowserReport (s : State) (c : Nat) (x : BowserReport) : State :=
  match s.channel c with
  | none => s
  | some ch =>
    let s := s.changeChannel c fun ch => { ch with report := some x }
    match ch.state with
    | .idle => s
    | .heldLog _ _ => s
    | .armed d =>
      let d := d.metered x
      if d.delivered == 0 then s.setChannel c (.armed d) else s.judgeFlow c d
    | .flowing d => s.judgeFlow c (d.metered x)
    | .halted d cause =>
      let d := d.metered x
      (if d.reached then s.settleChannel c d else s.setChannel c (.halted d cause)).judgeRunning c x
    | .settling d left => (s.setChannel c (.settling (if d.meterLost then d else d.metered x) left)).judgeRunning c x

/-! ## Set reports -/

/-- R101: the resume judged in HALTED with cause HIGH MARK. -/
def State.judgeResume (s : State) (c : Nat) (d : Delivery) : State :=
  if decide (s.levelOf d.set ≤ (s.marksOf d.set).highClear) && d.haltConfirmed && !s.haltOutstanding c then
    (s.setChannel c (.flowing d)).runPump c
  else s

/-- R101: energy during delivery, saturating. -/
def Delivery.addEnergy (d : Delivery) (delta : Option Word32) : Delivery :=
  { d with energy := satAdd d.energy (delta.elim 0 fun x => x.toNat) }

/-- R101: the FLOWING channel halts at the HIGH mark. -/
def State.judgeHigh (s : State) (c : Nat) (d : Delivery) (level : Nat) : State :=
  if (s.marksOf d.set).high ≤ level then
    s.stopThen c fun s d => s.haltChannel c { d with highHalts := satAdd d.highHalts 1 } .highMark
  else s

/-- R101: a set report applied to the channel that targets the set, with the energy delta handed over (R92). -/
def State.deliverySetReport (s : State) (i : Nat) (x : SetReport) (delta : Option Word32) : State :=
  match s.channelTo i with
  | none => s
  | some c =>
    let s := s.changeDelivery c fun d => d.addEnergy delta
    match s.channelState c with
    | some (.flowing d) => s.judgeHigh c d x.level
    | some (.halted d .gaugeLost) => (s.setChannel c (.halted d .highMark)).judgeResume c d
    | some (.halted d .highMark) => s.judgeResume c d
    | some (.halted _ .hold) => s
    | some (.armed _) => s
    | some (.settling _ _) => s
    | some .idle => s
    | some (.heldLog _ _) => s
    | none => s

/-! ## Outcomes and losses -/

/-- R103: a PUMP RUN ended; it acts on the present state. -/
def State.pumpRunEnded (s : State) (c : Nat) (o : CommandOutcome) : State :=
  match s.channelState c, o with
  | some (.halted _ _), .done => s.stopPump c
  | some (.settling _ _), .done => s.stopPump c
  | some (.armed d), .noAnswer => s.haltChannel c d .hold
  | some (.flowing d), .noAnswer => s.haltChannel c d .hold
  | _, _ => s

/-- R103: a PUMP HALT of the open ticket ended DONE. -/
def State.haltDone (s : State) (c : Nat) : State :=
  let s := s.changeDelivery c fun d => { d with haltConfirmed := true }
  match s.channelState c with
  | some (.halted d .highMark) => s.judgeResume c d
  | _ => s

/-- R103: a PUMP HALT of the open ticket ended NO ANSWER. -/
def State.haltUnanswered (s : State) (c : Nat) : State :=
  match s.channelState c with
  | some (.halted _ _) => if s.line.stationIs .bowser c .lost then s else s.offerHalt c
  | some (.settling _ _) => if s.line.stationIs .bowser c .lost then s else s.offerHalt c
  | _ => s

/-- R103: a PUMP HALT ended; a halt of a ticket that has closed changes nothing. -/
def State.pumpHaltEnded (s : State) (k : Command) (o : CommandOutcome) : State :=
  match s.delivery k.object with
  | none => s
  | some d =>
    if d.halt == some k.serial then
      match o with
      | .done => s.haltDone k.object
      | .noAnswer => s.haltUnanswered k.object
      | .removed => s
    else s

/-- R103: a pump command ended. -/
def State.pumpOutcome (s : State) (k : Command) (o : CommandOutcome) : State :=
  match k.order with
  | .pumpRun => s.pumpRunEnded k.object o
  | .pumpHalt => s.pumpHaltEnded k o
  | _ => s

/-- R108: the target set is lost. -/
def State.gaugeLost (s : State) (i : Nat) : State :=
  match s.channelTo i with
  | none => s
  | some c =>
    let s := s.changeDelivery c fun d => { d with gaugeLost := true }
    match s.channelState c with
    | some (.armed _) => s.stopThen c fun s d => s.haltChannel c d .gaugeLost
    | some (.flowing _) => s.stopThen c fun s d => s.haltChannel c d .gaugeLost
    | some (.halted d .highMark) => s.setChannel c (.halted d .gaugeLost)
    | some (.halted _ .hold) => s
    | some (.halted _ .gaugeLost) => s
    | some (.settling _ _) => s
    | some .idle => s
    | some (.heldLog _ _) => s
    | none => s

/-- R109: the bowser station is lost. -/
def State.meterLost (s : State) (c : Nat) : State :=
  let s := s.changeDelivery c fun d => { d with meterLost := true }
  match s.channelState c with
  | some (.armed d) => s.settleChannel c d
  | some (.flowing d) => s.settleChannel c d
  | some (.halted d _) => s.settleChannel c d
  | some (.settling _ _) => s
  | some .idle => s
  | some (.heldLog _ _) => s
  | none => s

/-! ## Reconciliation and closing -/

/-- R111: the discrepancy as it is kept and sent: 4 bytes signed, saturating. -/
def saturate (x : Int) : Int := max (-2147483648) (min 2147483647 x)

/-- R111: burn estimate. -/
def burnEstimate (rate energy : Nat) : Nat := rate * energy / 100000

/-- R111: discrepancy, without limit of width. -/
def discrepancyOf (delivered startLevel endLevel burn : Nat) : Int :=
  (delivered : Int) - ((endLevel : Int) - (startLevel : Int)) - (burn : Int)

/-- R111: the limit. -/
def disputeLimit (delivered : Nat) : Nat := max (delivered / 50) 200

/-- R112: the outcome. -/
def Delivery.outcome (d : Delivery) (cancelled : Bool) : DeliveryOutcome :=
  if cancelled then .cancelled
  else if d.meterLost then .meterLost
  else if d.reached then .complete
  else .short

/-- R111, R112, R113 step 2: the delivery record. -/
def Delivery.record (d : Delivery) (c endLevel rate : Nat) (cancelled : Bool) (closed : Stamp) : DeliveryRecord :=
  let delivered : Word32 := if cancelled then 0 else d.delivered
  let burn := burnEstimate rate d.energy.toNat
  let x := discrepancyOf delivered.toNat d.startLevel endLevel burn
  { ticket := d.ticket
    supplier := d.supplier
    channel := c
    set := d.set
    ordered := d.ordered
    delivered := delivered
    startLevel := d.startLevel
    endLevel := endLevel
    energy := d.energy
    rate := rate
    burn := burn
    discrepancy := saturate x
    outcome := d.outcome cancelled
    disputed := decide (disputeLimit delivered.toNat < x.natAbs)
    gaugeLost := d.gaugeLost
    meterLost := d.meterLost
    highHalts := d.highHalts
    opened := d.opened
    closed := closed }

/-- A signed number in 4 bytes, two's complement. -/
def beInt4 (x : Int) : List Byte := be 4 (x % 4294967296).toNat

/-- The rank of a channel in HELD-LOG, with its record. -/
def Channel.held (c : Channel) : Option (DeliveryRecord × Nat) :=
  match c.state with
  | .heldLog r rank => some (r, rank)
  | .idle => none
  | .armed _ => none
  | .flowing _ => none
  | .halted _ _ => none
  | .settling _ _ => none

/-- Channels in HELD-LOG. -/
def State.heldCount (s : State) : Nat := s.deliveries.channels.cells.countP fun c => c.held.isSome

/-- R113, steps 3 to 5. -/
def State.fileRecord (s : State) (c : Nat) (r : DeliveryRecord) : State :=
  let fits := decide (s.deliveries.log.length < Config.logCap)
  let s :=
    if fits then { s with deliveries.log := s.deliveries.log ++ [r] }.setChannel c .idle
    else
      { s with deliveries.nextHeld := s.deliveries.nextHeld + 1 }.setChannel c (.heldLog r s.deliveries.nextHeld)
  let s :=
    s.post .deliveryClosed
      (be 1 c ++ be 4 r.ticket ++ be 1 r.set ++ be 1 r.outcome.value ++ be 4 r.delivered.toNat ++ beInt4 r.discrepancy ++
        be 1 (flag r.disputed) ++ be 1 (flag !fits))
  if fits then s else s.post .logFull (be 1 c ++ be 4 r.ticket ++ be 1 s.heldCount)

/-- R111 to R113: a delivery is reconciled and closed. -/
def State.closeDelivery (s : State) (c : Nat) (d : Delivery) (cancelled : Bool) : State :=
  let r := d.record c (s.levelOf d.set) (s.rateInUse d.set) cancelled s.now
  (s.deliveryClosedTo d.set r.burn).fileRecord c r

/-- R110: the settle timer expires. -/
def settleExpiry (s : State) (c : Nat) : State :=
  match s.channelState c with
  | some (.settling d 0) => s.closeDelivery c d false
  | _ => s

/-! ## Requests -/

/-- R99: OPEN DELIVERY. -/
def ownOpenDelivery (fields : List Nat) (s : State) : Answered :=
  let c := arg fields 1
  let i := arg fields 4
  let ordered := arg fields 5
  let lease := s.lease i
  unlessRefused s
    [(s.loader.resetDue, refuse .state 0),
      (decide (2 < c), refuse .range 1), (decide (11 < i), refuse .range 4),
      (!(s.channel c).elim true Channel.isIdle, refuse .state 1),
      (!s.line.enrolled .bowser c, refuse .absent 1),
      ((s.set i).isNone, refuse .absent 4),
      (lease.isNone, refuse .notLeased 4),
      (s.deliveries.channels.cells.any fun x => x.target == some i, refuse .conflict 4),
      (!s.line.stationIs .bowser c .answering, refuse .state 1),
      (!s.line.stationIs .set i .answering, refuse .state 4),
      (decide ((s.marksOf i).highClear ≤ s.levelOf i), refuse .state 4),
      (ordered == 0 || lease.elim false fun l => decide (l.capacity < ordered), refuse .range 5),
      (s.deliveries.opened == 4294967295, refuse .full 0),
      (!s.line.consoleRoom .routine, refuse .busy 0)]
    (let d : Delivery :=
      { ticket := arg fields 2
        supplier := arg fields 3
        set := i
        ordered := ordered
        meterStart := ((s.channel c).bind fun x => x.report).elim 0 fun x => x.count
        delivered := 0
        startLevel := s.levelOf i
        energy := 0
        highHalts := 0
        gaugeLost := false
        meterLost := false
        haltConfirmed := false
        halt := none
        opened := s.now }
    done ({ s with deliveries.opened := s.deliveries.opened + 1 }.setChannel c (.armed d) |>.offer .pumpRun c .routine) [])

/-- R104, R106, R107: stopping the pump for a request needs room at once for a PUMP HALT it would offer. -/
def State.haltBusy (s : State) (c : Nat) : Bool := s.needsHalt c && !s.line.consoleRoom .safety

/-- R104, R106, R107: a request that stops the pump and then acts on the delivery. -/
def stopRequest (s : State) (c : Nat) (k : State → Delivery → State) : Answered :=
  if s.haltBusy c then (s, some (refuse .busy 0)) else done (s.stopThen c k) []

/-- The state of the channel a crew request names, or a refusal (06, section 6.6). -/
def onChannel (s : State) (c : Nat) (k : ChannelState → Answered) : Answered :=
  match s.channel c with
  | none => (s, some (refuse .range 1))
  | some ch => k ch.state

/-- R104: HOLD DELIVERY. -/
def ownHoldDelivery (fields : List Nat) (s : State) : Answered :=
  let c := arg fields 1
  onChannel s c fun q =>
    match q with
    | .armed _ => stopRequest s c fun s d => s.haltChannel c d .hold
    | .flowing _ => stopRequest s c fun s d => s.haltChannel c d .hold
    | .halted d _ => done (s.setChannel c (.halted d .hold)) []
    | .idle => (s, some (refuse .state 1))
    | .settling _ _ => (s, some (refuse .state 1))
    | .heldLog _ _ => (s, some (refuse .state 1))

/-- R105: RESUME DELIVERY. -/
def ownResumeDelivery (fields : List Nat) (s : State) : Answered :=
  let c := arg fields 1
  onChannel s c fun q =>
    match q with
    | .halted d .hold =>
      unlessRefused s
        [(s.line.stationIs .set d.set .lost, refuse .state 1), (s.haltOutstanding c, refuse .state 1)]
        (if (s.marksOf d.set).highClear ≤ s.levelOf d.set then done (s.setChannel c (.halted d .highMark)) []
          else if !s.line.consoleRoom .routine then (s, some (refuse .busy 0))
          else done ((s.setChannel c (if d.delivered == 0 then .armed d else .flowing d)).runPump c) [])
    | .halted _ .highMark => (s, some (refuse .state 1))
    | .halted _ .gaugeLost => (s, some (refuse .state 1))
    | .armed _ => (s, some (refuse .state 1))
    | .flowing _ => (s, some (refuse .state 1))
    | .idle => (s, some (refuse .state 1))
    | .settling _ _ => (s, some (refuse .state 1))
    | .heldLog _ _ => (s, some (refuse .state 1))

/-- R106: FINISH DELIVERY. -/
def ownFinishDelivery (fields : List Nat) (s : State) : Answered :=
  let c := arg fields 1
  onChannel s c fun q =>
    match q with
    | .armed _ => stopRequest s c fun s d => s.settleChannel c d
    | .flowing _ => stopRequest s c fun s d => s.settleChannel c d
    | .halted d _ => done (s.settleChannel c d) []
    | .idle => (s, some (refuse .state 1))
    | .settling _ _ => (s, some (refuse .state 1))
    | .heldLog _ _ => (s, some (refuse .state 1))

/-- R107: CANCEL DELIVERY. -/
def ownCancelDelivery (fields : List Nat) (s : State) : Answered :=
  let c := arg fields 1
  onChannel s c fun q =>
    match q with
    | .armed _ => stopRequest s c fun s d => s.closeDelivery c d true
    | .flowing _ => (s, some (refuse .state 1))
    | .halted _ _ => (s, some (refuse .state 1))
    | .idle => (s, some (refuse .state 1))
    | .settling _ _ => (s, some (refuse .state 1))
    | .heldLog _ _ => (s, some (refuse .state 1))

/-- R114: a delivery record, 43 bytes. -/
def DeliveryRecord.bytes (r : DeliveryRecord) : List Byte :=
  be 4 r.ticket ++ be 2 r.supplier ++ be 1 r.channel ++ be 1 r.set ++ be 2 r.ordered ++ be 4 r.delivered.toNat ++
    be 2 r.startLevel ++ be 2 r.endLevel ++ be 4 r.energy.toNat ++ be 2 r.rate ++ be 4 r.burn ++ beInt4 r.discrepancy ++
    be 1 r.outcome.value ++ be 1 (flagBits [r.disputed, r.gaugeLost, r.meterLost]) ++ be 1 r.highHalts.toNat ++
    r.opened.bytes ++ r.closed.bytes

/-- R115: the channel that entered HELD-LOG earliest, with its record. -/
def Deliveries.earliestHeld (d : Deliveries) : Option (Nat × DeliveryRecord) :=
  let held := d.channels.cells.zipIdx.filterMap fun x => x.1.held.map fun r => (x.2, r)
  (held.find? fun x => held.all fun y => decide (x.2.2 ≤ y.2.2)).map fun x => (x.1, x.2.1)

/-- R115: the earliest held record joins the log and its channel becomes IDLE. -/
def State.releaseHeld (s : State) : State :=
  match s.deliveries.earliestHeld with
  | some (c, r) => { s with deliveries.log := s.deliveries.log ++ [r] }.setChannel c .idle
  | none => s

/-- R115: TAKE DELIVERY RECORD. -/
def ownTakeDeliveryRecord (_fields : List Nat) (s : State) : Answered :=
  match s.deliveries.log with
  | [] => (s, some (refuse .empty 0))
  | r :: rest =>
    done ({ s with deliveries.log := rest, deliveries.taken := s.deliveries.taken + 1 }.releaseHeld)
      (r.bytes ++ be 1 rest.length)

/-- R117: what READ CHANNEL shows of a delivery or of a closed record. -/
structure ChannelView where
  cause : Nat
  gaugeLost : Bool
  meterLost : Bool
  haltOut : Bool
  runOut : Bool
  confirmed : Bool
  ticket : Nat
  supplier : Nat
  set : Nat
  ordered : Nat
  meterStart : Nat
  delivered : Nat
  startLevel : Nat
  energy : Nat
  highHalts : Nat
  opened : Stamp
  left : Nat
deriving DecidableEq, Repr

/-- R117: delivery fields of an IDLE channel. -/
def ChannelView.none : ChannelView := ⟨0, false, false, false, false, false, 0, 0, 0, 0, 0, 0, 0, 0, 0, .zero, 0⟩

/-- R117: the view of an open delivery. -/
def State.viewDelivery (s : State) (c : Nat) (d : Delivery) (cause left : Nat) : ChannelView :=
  ⟨cause, d.gaugeLost, d.meterLost, s.haltOutstanding c, s.runOutstanding c, d.haltConfirmed, d.ticket, d.supplier, d.set,
    d.ordered, d.meterStart.toNat, d.delivered.toNat, d.startLevel, d.energy.toNat, d.highHalts.toNat, d.opened, left⟩

/-- R117: the view of a closed record. -/
def DeliveryRecord.view (r : DeliveryRecord) : ChannelView :=
  ⟨0, r.gaugeLost, r.meterLost, false, false, false, r.ticket, r.supplier, r.set, r.ordered, 0, r.delivered.toNat,
    r.startLevel, r.energy.toNat, r.highHalts.toNat, r.opened, 0⟩

/-- R117: the view of a channel. -/
def State.viewChannel (s : State) (c : Nat) : ChannelState → ChannelView
  | .idle => .none
  | .armed d => s.viewDelivery c d 0 0
  | .flowing d => s.viewDelivery c d 0 0
  | .halted d cause => s.viewDelivery c d cause.value 0
  | .settling d left => s.viewDelivery c d 0 left
  | .heldLog r _ => r.view

/-- R117: the DONE data of READ CHANNEL; 0 for the latest meter count and pump state of a channel with no bowser report
(log entry 31). -/
def State.channelData (s : State) (c : Nat) (ch : Channel) : List Byte :=
  let v := s.viewChannel c ch.state
  be 1 c ++ be 1 ch.state.value ++ be 1 v.cause ++
    be 1 (flagBits [v.gaugeLost, v.meterLost, v.haltOut, v.runOut, v.confirmed, ch.report.isSome]) ++
    be 4 v.ticket ++ be 2 v.supplier ++ be 1 v.set ++ be 2 v.ordered ++
    be 4 v.meterStart ++ be 4 (ch.report.elim 0 fun x => x.count.toNat) ++ be 1 (ch.report.elim 0 fun x => flag x.running) ++
    be 4 v.delivered ++ be 2 v.startLevel ++ be 4 v.energy ++
    be 1 v.highHalts ++ v.opened.bytes ++ be 2 v.left ++
    be 1 s.deliveries.log.length ++ be 1 s.heldCount ++ be 4 s.deliveries.opened ++ be 4 s.deliveries.taken

/-- R117: READ CHANNEL. -/
def ownReadChannel (fields : List Nat) (s : State) : Answered :=
  let c := arg fields 1
  match s.channel c with
  | none => (s, some (refuse .range 1))
  | some ch => done s (s.channelData c ch)

end Sys2Proof.Machine
end

