-- ==== Sys2Proof/Machine/Circuits.lean ====
section
/-! DEFINITION. The Billing engine (08; 09, sections 9.1 and 9.2): circuit records, the map, the miss latch, one circuit
billing, and its requests. -/

namespace Sys2Proof.Machine

/-! ## Codes -/

/-- R149: coding of the hold causes. -/
def HoldCause.value : HoldCause → Nat
  | .miss => 1
  | .quarantine => 2
  | .unreadable => 3
  | .denied => 4

/-- R157: coding of the circuit state. -/
def CircuitState.value : CircuitState → Nat
  | .unread => 0
  | .current => 1
  | .held _ => 2

/-- R157: the hold cause, 0 for none. -/
def CircuitState.causeValue : CircuitState → Nat
  | .held c => c.value
  | .unread => 0
  | .current => 0

/-! ## Circuit records -/

/-- A circuit record. -/
def State.circuit (s : State) (c : Nat) : Option Circuit := s.billing.circuits.get c

/-- Change a circuit record. -/
def State.changeCircuit (s : State) (c : Nat) (f : Circuit → Circuit) : State :=
  { s with billing.circuits := s.billing.circuits.modify c f }

/-- R143: unbilled delta. -/
def Circuit.unbilled (r : Circuit) : Word32 := r.last - r.cursor

/-- R143: circuit `c` is channel c mod 8 of meter station c / 8. -/
def onStation (station c : Nat) : Bool := c / 8 == station

/-- R144: a counter becomes the last reading of a circuit. -/
def Circuit.read (r : Circuit) (x : Word32) (now : Stamp) : Circuit :=
  if r.state == .unread then { r with state := .current, base := x, cursor := x, last := x, stamp := now }
  else { r with last := x, stamp := now }

/-- R144: a METER report. -/
def State.applyMeterReport (s : State) (station : Nat) (counters : List Word32) : State :=
  { s with
    billing.circuits :=
      s.billing.circuits.mapIdx fun c r =>
        if onStation station c then
          match counters[c % 8]? with
          | some x => r.read x s.now
          | none => r
        else r }

/-- R145: the eight circuits of a meter station become UNREAD; `stage` is the new entry's at enrolment. -/
def State.unreadStation (s : State) (station : Nat) (stage : Option Nat) : State :=
  { s with
    billing.circuits :=
      s.billing.circuits.mapIdx fun c r =>
        if onStation station c then { Circuit.reset with stage := stage.getD r.stage } else r
    billing.inFlight :=
      s.billing.inFlight.map fun b => if onStation station b.circuit then { b with stale := true } else b }

/-- R151: the circuits of a meter station that are not UNREAD are marked STRADDLED. -/
def State.straddle (s : State) (station : Nat) : State :=
  { s with
    billing.circuits :=
      s.billing.circuits.mapIdx fun c r =>
        if onStation station c && r.state != .unread then { r with straddled := true } else r }

/-- R143: the in-flight mark. -/
def State.isInFlight (s : State) (c : Nat) : Bool := s.billing.inFlight.any fun b => b.circuit == c

/-! ## The circuit map -/

/-- R148: the number of the used entry that names a circuit. -/
def BillingEngine.entryOf (b : BillingEngine) (c : Nat) : Option Nat :=
  b.map.find fun e => e.elim false fun x => x.circuit == c

/-- R148, R154: the next entry number, 31 returning to 0. -/
def nextEntry (n : Nat) : Nat := (n + 1) % 32

/-- R148: a hit at the rotation pointer advances it. -/
def State.hitEntry (s : State) (e : Nat) : State :=
  if e == s.billing.pointer then { s with billing.pointer := nextEntry s.billing.pointer } else s

/-- R154, step 3: the first unpinned entry from the pointer on. -/
def BillingEngine.replaceable (b : BillingEngine) : Option Nat :=
  ((List.range 32).map fun k => (b.pointer + k) % 32).find? fun e => (b.map.used e).elim false fun x => !x.pinned

/-- R154: where INSTALL MAP places an entry: the number, the pointer after it, the circuit that loses its entry. -/
structure Placement where
  entry : Nat
  pointer : Nat
  loser : Option Nat
deriving DecidableEq, Repr

/-- R154, steps 1 to 4. -/
def BillingEngine.placeFor (b : BillingEngine) (c : Nat) : Option Placement :=
  match b.entryOf c with
  | some e => some ⟨e, b.pointer, none⟩
  | none =>
    match b.map.find fun e => e.isNone with
    | some e => some ⟨e, b.pointer, none⟩
    | none => b.replaceable.map fun e => ⟨e, nextEntry e, (b.map.used e).map fun x => x.circuit⟩

/-! ## One circuit billing -/

/-- R149: the circuit is held. -/
def State.hold (s : State) (c : Nat) (cause : HoldCause) : State := s.changeCircuit c fun r => { r with state := .held cause }

/-- R147: the delta is rejected. -/
def State.reject (s : State) (c : Nat) (r : Circuit) (delta : Word32) : State :=
  (s.changeCircuit c fun r =>
      { r with
        state := .current
        straddled := false
        implausible := true
        rejected := r.rejected + delta.setWidth 64
        cursor := r.last }).post .implausible
    (be 1 c ++ be 1 r.stage ++ be 4 delta.toNat ++ be 4 r.last.toNat ++ be 4 s.clock.limit)

/-- R152: the miss latch. A repeat miss of the circuit leaves the stage of the latch as it is (log entry 35). -/
def State.latchMiss (s : State) (c : Nat) (r : Circuit) (delta : Word32) : State :=
  match s.billing.miss with
  | none =>
    { s with billing.miss := some ⟨c, r.stage, delta, s.now, false⟩ }.post .mapMiss
      (be 1 c ++ be 1 r.stage ++ be 4 delta.toNat)
  | some l =>
    if l.circuit == c then { s with billing.miss := some { l with delta := delta, stamp := s.now } }
    else { s with billing.miss := some { l with more := true } }

/-- R184: the account is in the quarantine list. -/
def State.quarantined (s : State) (a : Nat) : Bool := s.tally.quarantine.contains a

/-- R161: the rate of a billing: the rate in use of the active set of the circuit's stage, or the captured rate. -/
def State.billingRate (s : State) (src : Source) (r : Circuit) : Nat :=
  match src with
  | .sweep => ((s.stage r.stage).bind Stage.activeSet).elim 0 s.rateInUse
  | .stream k => ((s.billing.streams.get k).bind fun x => x.requests.head?).elim 0 fun x => x.rate

/-- R161: fuel share in mL. -/
def fuelShareOf (levy : Bool) (delta : Word32) (rate : Nat) : Nat := if levy then delta.toNat * rate / 1000 else 0

/-- R161: the update is formed and joins the work list; the billing waits for its outcome (R162). -/
def State.sendUpdate (s : State) (src : Source) (c : Nat) (r : Circuit) (e : MapEntry) (delta : Word32) : State :=
  let u : AccountUpdate :=
    ⟨src, e.account, delta, fuelShareOf e.levy delta (s.billingRate src r), r.straddled, s.windows.tag e.account⟩
  let b : Billing := ⟨src, c, r.last, delta, r.straddled, false⟩
  { s with billing.inFlight := s.billing.inFlight ++ [b], tally.work := s.tally.work ++ [.update u] }

/-- R160, R146 to R149, R161: a billing of circuit `c` for a source, up to its end or to the sending of its update; the
second part says whether it is in flight. -/
def State.runBilling (s : State) (src : Source) (c : Nat) : State × Bool :=
  match s.circuit c with
  | none => (s, false)
  | some r =>
    if r.state == .unread || r.unbilled == 0 then (s, false)
    else if s.clock.limit < r.unbilled.toNat then (s.reject c r r.unbilled, false)
    else
      match s.billing.entryOf c with
      | none => ((s.hold c .miss).latchMiss c r r.unbilled, false)
      | some n =>
        match s.billing.map.used n with
        | none => (s, false)
        | some e =>
          let s := s.hitEntry n
          if s.quarantined e.account then (s.hold c .quarantine, false)
          else if (s.windows.denies .engine e.account).isSome then (s.hold c .denied, false)
          else (s.sendUpdate src c r e r.unbilled, true)

/-- R163, R164: the source has done with the circuit it was at and goes on. -/
def State.goOn (s : State) (src : Source) : State :=
  let b : BillingEngine :=
    match src with
    | .sweep => { s.billing with sweep := s.billing.sweep.map fun x => { x with next := x.next + 1 } }
    | .stream k => { s.billing with streams := s.billing.streams.modify k fun x => { x with next := x.next + 1 } }
  { s with billing := b }.tell (.bill src)

/-- R160: the mark of a circuit has cleared: the source that reached it first starts; where its billing ends at once,
the next one starts. `n` bounds the waiting sources. -/
def State.passMark (c : Nat) : Nat → State → State
  | 0, s => s
  | n + 1, s =>
    match s.billing.waiters.find? fun w => w.circuit == c with
    | none => s
    | some w =>
      let s := { s with billing.waiters := s.billing.waiters.erase w }
      match s.runBilling w.source c with
      | (s, true) => s
      | (s, false) => State.passMark c n (s.goOn w.source)

/-- R160, R163, R164: a source reaches a circuit: it passes over an UNREAD one, waits for the mark, or starts the
billing. -/
def State.reach (s : State) (src : Source) (c : Nat) : State :=
  if (s.circuit c).elim true fun r => r.state == .unread then s.goOn src
  else if s.isInFlight c then { s with billing.waiters := s.billing.waiters ++ [⟨src, c⟩] }
  else
    match s.runBilling src c with
    | (s, true) => s
    | (s, false) => s.goOn src

/-- R162: outcomes of an account update. -/
inductive UpdateOutcome where
  | performed | unreadable | quarantined
deriving DecidableEq, Repr

/-- R150: the billing succeeded. -/
def State.credit (s : State) (b : Billing) : State :=
  s.changeCircuit b.circuit fun r =>
    { r with
      state := .current
      implausible := false
      straddled := r.straddled && !b.straddle
      credited := r.credited + b.delta.setWidth 64
      cursor := b.reading }

/-- R149, R150, R162: an outcome applied to the circuit, unless it became UNREAD meanwhile (R145). -/
def State.applyOutcome (s : State) (b : Billing) (o : UpdateOutcome) : State :=
  if b.stale then s
  else
    match o with
    | .performed => s.credit b
    | .unreadable => s.hold b.circuit .unreadable
    | .quarantined => s.hold b.circuit .quarantine

/-- R160, R162: the update of a source's billing has ended; the billing ends, its mark clears, its source goes on. -/
def State.endBilling (s : State) (src : Source) (o : UpdateOutcome) : State :=
  match s.billing.inFlight.find? fun b => b.source == src with
  | none => s
  | some b =>
    let s := { s with billing.inFlight := s.billing.inFlight.filter fun x => x.source != src }
    let s := s.applyOutcome b o
    (State.passMark b.circuit s.billing.waiters.length s).goOn src

/-- R163: a sweep starts at circuit 0. -/
def State.startSweep (s : State) (k : SweepKind) : State :=
  { s with billing.sweep := some ⟨k, 0⟩, billing.closingCalled := false }.tell (.bill .sweep)

/-- R28, R163: a sweep falls due, where the elapsed count has reached the interval (log entry 3). -/
def sweepDue (s : State) : State :=
  if s.clock.interval ≤ s.clock.elapsed then
    let s := { s with clock.elapsed := s.clock.elapsed - s.clock.interval }
    if s.billing.sweep.isNone && s.period.close.isNone then s.startSweep .timed else s
  else s

/-- R164: a boundary request joins the back of its stage's stream; an idle stream begins. -/
def State.handOver (s : State) (r : BoundaryRequest) : State :=
  let idle := (s.billing.streams.get r.stage).elim false fun x => x.requests.isEmpty
  let s :=
    { s with
      billing.streams := s.billing.streams.modify r.stage fun x => { x with requests := x.requests ++ [r] } }
  if idle then s.tell (.bill (.stream r.stage)) else s

/-- R164: a stream goes on: the front request leaves after its eighth circuit, else its next circuit is reached. -/
def State.continueStream (s : State) (k : Nat) : State :=
  match s.billing.streams.get k with
  | none => s
  | some x =>
    match x.requests with
    | [] => s
    | r :: rest =>
      if 8 ≤ x.next then
        ({ s with billing.streams := s.billing.streams.set k ⟨rest, 0⟩ }.tell (.boundaryEnded r)).tell (.bill (.stream k))
      else s.reach (.stream k) (8 * r.station + x.next)

/-- Whether a source waits for a circuit or has a billing in flight. -/
def BillingEngine.engaged (b : BillingEngine) (src : Source) : Bool :=
  (b.waiters.any fun w => w.source == src) || b.inFlight.any fun x => x.source == src

/-! ## Requests -/

/-- R176: the account lies in a bank that is present. -/
def State.bankPresent (s : State) (a : Nat) : Bool := if a < 512 then s.tally.bank0 else s.tally.bank1

/-- R154: INSTALL MAP. -/
def ownInstallMap (fields : List Nat) (s : State) : Answered :=
  let c := arg fields 1
  let a := arg fields 2
  let levy := arg fields 3
  let pinned := arg fields 4
  unlessRefused s
    [(decide (95 < c), refuse .range 1), (decide (1023 < a), refuse .range 2), (decide (1 < levy), refuse .range 3),
      (decide (1 < pinned), refuse .range 4), (!s.bankPresent a, refuse .absent 2),
      denied (s.windows.denies .office a) 2]
    (match s.billing.placeFor c with
      | none => (s, some (refuse .full 0))
      | some p =>
        let e : MapEntry := ⟨c, a, levy == 1, pinned == 1⟩
        done { s with billing := { s.billing with map := s.billing.map.set p.entry (some e), pointer := p.pointer } }
          (be 1 p.entry ++ be 1 (p.loser.getD 255)))

/-- The used entries that pass. -/
def BillingEngine.countEntries (b : BillingEngine) (p : MapEntry → Bool) : Nat :=
  b.map.cells.countP fun e => e.elim false p

/-- The map without the entries that pass. -/
def BillingEngine.freeEntries (b : BillingEngine) (p : MapEntry → Bool) : BillingEngine :=
  { b with map := b.map.map fun e => e.filter fun x => !p x }

/-- R155: the entries that pass become free. -/
def freeWhere (s : State) (p : MapEntry → Bool) : Answered :=
  done { s with billing := s.billing.freeEntries p } (be 1 (s.billing.countEntries p))

/-- R155: forms ALL and UNPINNED ask for a circuit field of 0; a form above 2 is out of range. -/
def wholeMapChecks (fields : List Nat) : List (Bool × Reply) :=
  [(decide (2 < arg fields 1), refuse .range 1), (arg fields 2 != 0, refuse .range 2)]

/-- R155: CLEAR MAP, form ALL. -/
def ownClearMapAll (fields : List Nat) (s : State) : Answered :=
  unlessRefused s (wholeMapChecks fields)
    (done { s with billing := { s.billing.freeEntries (fun _ => true) with pointer := 0 } }
      (be 1 (s.billing.countEntries fun _ => true)))

/-- R155: CLEAR MAP, form UNPINNED. -/
def ownClearMapUnpinned (fields : List Nat) (s : State) : Answered :=
  unlessRefused s (wholeMapChecks fields) (freeWhere s fun e => !e.pinned)

/-- R155: CLEAR MAP, form CIRCUIT. -/
def ownClearMapCircuit (fields : List Nat) (s : State) : Answered :=
  let c := arg fields 2
  unlessRefused s
    [(decide (2 < arg fields 1), refuse .range 1), (decide (95 < c), refuse .range 2),
      ((s.billing.entryOf c).isNone, refuse .absent 2)]
    (freeWhere s fun e => e.circuit == c)

/-- The requests a CLEAR MAP command judges: of its form, or naming no form (log entry 7). -/
def takesClearMap (form : Nat) (f : Frame) : Bool :=
  f.kind == RequestRow.clearMap.kind &&
    (f.payload.head?.elim true fun b => b.toNat == form || decide (2 < b.toNat))

/-- R153: circuits held with cause MISS. -/
def BillingEngine.heldForMiss (b : BillingEngine) : Nat := b.circuits.cells.countP fun r => r.state == .held .miss

/-- R153: the latch as bytes. -/
def missBytes : Option MissLatch → List Byte
  | some l => be 1 1 ++ be 1 l.circuit ++ be 1 l.stage ++ be 4 l.delta.toNat ++ l.stamp.bytes ++ be 1 (flag l.more)
  | none => List.replicate 12 0

/-- R153: READ MISS. -/
def ownReadMiss (_fields : List Nat) (s : State) : Answered :=
  done { s with billing.miss := none } (missBytes s.billing.miss ++ be 1 s.billing.heldForMiss)

/-- R156: an entry as bytes. A free entry is circuit 255 and account 0; R156 gives no flags byte for it, and 0 is sent
(DESIGN CHOICE, log entry 45). -/
def entryBytes : Option MapEntry → List Byte
  | some e => be 1 e.circuit ++ be 2 e.account ++ be 1 (flagBits [e.levy, e.pinned])
  | none => be 1 255 ++ be 2 0 ++ be 1 0

/-- R156: READ MAP. -/
def ownReadMap (fields : List Nat) (s : State) : Answered :=
  let first := arg fields 1
  unlessRefused s [(decide (31 < first), refuse .range 1)]
    (done s
      (be 1 s.billing.pointer ++ be 1 (s.billing.countEntries fun _ => true) ++
        ((s.billing.map.cells.drop first).take 16).flatMap entryBytes))

/-- R157: the DONE data of READ CIRCUIT. -/
def State.circuitData (s : State) (c : Nat) (r : Circuit) : List Byte :=
  let n := s.billing.entryOf c
  let e := n.bind s.billing.map.used
  be 1 c ++ be 1 (c / 8) ++ be 1 r.stage ++ be 1 (flag (s.line.enrolled .meter (c / 8))) ++ be 1 r.state.value ++
    be 1 r.state.causeValue ++ be 1 (flagBits [r.straddled, r.implausible, s.isInFlight c, n.isSome]) ++
    be 4 r.base.toNat ++ be 4 r.last.toNat ++ r.stamp.bytes ++ be 4 r.cursor.toNat ++ be 4 r.unbilled.toNat ++
    be 8 r.credited.toNat ++ be 8 r.rejected.toNat ++ be 2 (e.elim 0 fun x => x.account) ++ be 1 (n.getD 255)

/-- R157: READ CIRCUIT. -/
def ownReadCircuit (fields : List Nat) (s : State) : Answered :=
  let c := arg fields 1
  match s.circuit c with
  | none => (s, some (refuse .range 1))
  | some r => done s (s.circuitData c r)

end Sys2Proof.Machine
end

