-- ==== Sys2Proof/Machine/Stages.lean ====
section
/-! DEFINITION. The Feed sequencer (07): stage states, board reports, changeovers, automatic transfers, its requests. -/

namespace Sys2Proof.Machine

/-! ## Codes -/

/-- R121: coding of the stage states. -/
def StageState.value : StageState → Nat
  | .unknown => 0
  | .dark => 1
  | .fed _ => 2
  | .changing _ => 3
  | .conflict => 4

/-- R128: coding of the kinds. -/
def ChangeKind.value : ChangeKind → Nat
  | .requested => 1
  | .restore => 2
  | .fuelLow => 3
  | .supplyLoss => 4

/-- R140: coding of the steps. -/
def ChangeStep.value : ChangeStep → Nat
  | .preparing => 1
  | .boundary => 2
  | .opening => 3
  | .dead => 4
  | .closing => 5
  | .reverting => 6

/-- 07, section 7.5.1: coding of the outcomes. -/
def ChangeOutcome.value : ChangeOutcome → Nat
  | .done => 1
  | .reverted => 2
  | .aborted => 3
  | .abortedReversed => 4
  | .noHeadroom => 5
  | .notReady => 6
  | .incomingFault => 7
  | .boardFault => 8
  | .bothLost => 9
  | .closeFailed => 10
  | .overridden => 11
  | .withdrawn => 12

/-- A set index, 255 for none. -/
def setValue (i : Option Nat) : Nat := i.getD 255

/-! ## Stage records -/

/-- Change a stage record. -/
def State.changeStage (s : State) (k : Nat) (f : Stage → Stage) : State := { s with stages := s.stages.modify k f }

/-- R119: demand. -/
def Stage.demand (k : Stage) : Nat := k.report.elim 0 fun x => x.demand

/-- R119: close outstanding. -/
def State.closeOutstanding (s : State) (k : Nat) : Bool :=
  s.line.outstanding fun c => (c.order == .closeInput .a || c.order == .closeInput .b) && c.object == k

/-- Whether a stage state is FED. -/
def StageState.isFed : StageState → Bool
  | .fed _ => true
  | .unknown => false
  | .dark => false
  | .conflict => false
  | .changing _ => false

/-- Change the changeover context of a stage, its active input staying as it is. -/
def State.changeContext (s : State) (k : Nat) (f : Changeover → Changeover) : State :=
  s.changeStage k fun x =>
    match x.state with
    | .changing c => { x with state := .changing (f c) }
    | .unknown => x
    | .dark => x
    | .fed _ => x
    | .conflict => x

/-- The changeover context of a stage. -/
def State.context (s : State) (k : Nat) : Option Changeover := (s.stage k).bind Stage.context

/-- R121: STAGE STATE. -/
def State.postStage (s : State) (k left : Nat) : State :=
  match s.stage k with
  | none => s
  | some x =>
    s.post .stageState
      (be 1 k ++ be 1 x.state.value ++ be 1 left ++ be 1 (inputValue x.activeInput) ++ be 1 (setValue x.activeSet))

/-- R121, R137: a stage takes a state: at a change of state or active input STAGE STATE is posted; when it becomes FED on
an input the Set monitor judges the set first; the supply-loss episode ends when it leaves FED. -/
def State.enterStage (s : State) (k : Nat) (q : StageState) : State :=
  match s.stage k with
  | none => s
  | some old =>
    let s := s.changeStage k fun x => { x with state := q, lossEpisode := x.lossEpisode && q.isFed }
    match s.stage k with
    | none => s
    | some x =>
      if old.state.value == x.state.value && old.activeInput == x.activeInput then s
      else
        let s := if q.isFed then x.activeSet.elim s s.becomeFeeding else s
        s.postStage k old.state.value

/-! ## Headroom -/

/-- R125: the demand that another stage lays on a set. -/
def Stage.loadOn (x : Stage) (set : Nat) : Nat := if x.fedSet == some set || x.incoming == some set then x.demand else 0

/-- R125: the load of a set, judged for a stage. -/
def State.loadFor (s : State) (set stage : Nat) : Nat :=
  (s.stages.cells.zipIdx.map fun x => if x.2 == stage then 0 else x.1.loadOn set).sum

/-- R125: headroom of a set for a stage. -/
def State.headroom (s : State) (set stage : Nat) : Bool :=
  (s.lease set).elim false fun l =>
    decide (s.loadFor set stage + (s.stage stage).elim 0 Stage.demand ≤ l.rating)

/-! ## Ending a changeover -/

/-- R128: the state a changeover falls back to: FED on the from input, or DARK for a RESTORE. -/
def Changeover.fallback (c : Changeover) : StageState := c.source.elim .dark StageState.fed

/-- R128, step 2: serials of the context's commands that may still be withdrawn. -/
def Changeover.serials (c : Changeover) : List Nat :=
  (match c.board with
    | .offered n => [n]
    | .none => []
    | .ended => []) ++ (c.stations.filter fun l => l.state == .awaitingReading).map fun l => l.serial

/-- R128: a changeover ends. -/
def State.endChangeover (s : State) (k : Nat) (c : Changeover) (o : ChangeOutcome) (after : StageState) : State :=
  match s.stage k with
  | none => s
  | some x =>
    let incoming := x.setOf c.target
    let outgoing := c.source.bind x.setOf
    let s := if c.step == .preparing then incoming.elim s s.cancelStartOrder else s
    let s := c.serials.foldl State.recall s
    let s := s.enterStage k after
    let s :=
      s.post .changeoverEnded
        (be 1 k ++ be 1 c.kind.value ++ be 1 o.value ++ be 1 c.step.value ++ be 1 (inputValue c.source) ++
          be 1 (inputValue (some c.target)) ++ be 1 (setValue incoming) ++ be 1 (setValue outgoing) ++ c.started.bytes)
    if after.isFed then s.tell (.judgeSupply k) else s

/-! ## Steps -/

/-- Start a timer of a changeover (R30). -/
def State.startStageTimer (s : State) (k : Nat) (t : StageTimerKind) (tenths : Nat) : State :=
  s.changeContext k fun c => { c with timer := some ⟨t, tenths⟩ }

/-- A changeover takes a step: its timer is cancelled and no board command is offered in the step yet (log entry 32). -/
def State.takeStep (s : State) (k : Nat) (q : ChangeStep) : State :=
  s.changeContext k fun c => { c with step := q, timer := none, board := .none }

/-- Offer the context's board command (R132, R134, R135). -/
def State.offerBoard (s : State) (k : Nat) (o : Order) : State :=
  (s.changeContext k fun c => { c with board := .offered s.line.nextSerial, timer := none }).offer o k .sequence

/-- R134: the interlock: the latest board report shows both inputs open, and no close is outstanding. -/
def State.interlockFree (s : State) (k : Nat) : Bool :=
  ((s.stage k).bind fun x => x.report).elim false (fun x => !x.closedA && !x.closedB) && !s.closeOutstanding k

/-- R134, R135: the input that CLOSING or REVERTING closes. -/
def Changeover.closes (c : Changeover) : Option Input :=
  match c.step with
  | .closing => some c.target
  | .reverting => c.source
  | .preparing => none
  | .boundary => none
  | .opening => none
  | .dead => none

/-- R134, R135: offer the CLOSE INPUT where the interlock is free and it is not offered yet. -/
def State.tryClose (s : State) (k : Nat) : State :=
  match s.context k with
  | none => s
  | some c =>
    match c.closes with
    | none => s
    | some i => if c.board == .none && s.interlockFree k then s.offerBoard k (.closeInput i) else s

/-- R134, R135: CLOSING or REVERTING is entered; the confirm timer runs where the interlock is shut. -/
def State.enterClose (s : State) (k : Nat) (q : ChangeStep) : State :=
  let s := s.takeStep k q
  if s.interlockFree k then s.tryClose k else s.startStageTimer k .confirm Config.confirmTenths

/-- R133: whether the outgoing set is ONLINE. -/
def State.outgoingOnline (s : State) (k : Nat) (c : Changeover) : Bool :=
  ((s.stage k).bind fun x => c.source.bind x.setOf).elim false fun i => s.setStateOf i == some .online

/-- Whether a set is FAULTED or LOST. -/
def State.failedSet (s : State) (i : Nat) : Bool := s.setStateOf i == some .faulted || s.setStateOf i == some .lost

/-- R133: the incoming set failed in DEAD: revert, or BOTH LOST. -/
def State.deadFailed (s : State) (k : Nat) (c : Changeover) : State :=
  if s.outgoingOnline k c then s.enterClose k .reverting else s.endChangeover k c .bothLost .dark

/-- R134: a failure of the close: revert, or CLOSE FAILED. -/
def State.closeFails (s : State) (k : Nat) (c : Changeover) : State :=
  if c.kind != .restore && s.outgoingOnline k c then s.enterClose k .reverting
  else s.endChangeover k c .closeFailed .dark

/-- R133: DEAD is entered: the active input becomes NONE, STAGE STATE is posted and the incoming set judged. -/
def State.enterDead (s : State) (k : Nat) : State :=
  let left := (s.stage k).elim 0 fun x => x.state.value
  let s := (s.takeStep k .dead).postStage k left
  match s.stage k, s.context k with
  | some x, some c =>
    if (x.setOf c.target).elim false s.failedSet then s.deadFailed k c
    else s.startStageTimer k .dead (10 * x.deadTime)
  | _, _ => s

/-- R132: OPENING is entered: the OPEN INPUT of the from input is offered. -/
def State.enterOpening (s : State) (k : Nat) : State :=
  let s := s.takeStep k .opening
  match (s.context k).bind fun c => c.source with
  | some i => s.offerBoard k (.openInput i)
  | none => s

/-- R131: the METER stations enrolled with a stage, ascending. -/
def Line.metersOf (l : Line) (k : Nat) : List Nat :=
  (List.range 12).filter fun m => (l.station .meter m).elim false fun st => st.stage == k

/-- R131: READ COUNTERS is offered to each station, which joins the list. -/
def State.listStations (s : State) (k : Nat) : List Nat → State
  | [] => s
  | m :: rest =>
    let entry : Listed := ⟨m, s.line.nextSerial, .awaitingReading⟩
    State.listStations
      ((s.changeContext k fun c => { c with stations := c.stations ++ [entry] }).offer .readCounters m .sequence) k rest

/-- R131: BOUNDARY is entered: the outgoing rate is captured and the meters are to be read. -/
def State.enterBoundary (s : State) (k : Nat) : State :=
  let outgoing := (s.stage k).bind Stage.outgoing
  let s := s.takeStep k .boundary
  let s := s.changeContext k fun c => { c with rate := some (outgoing.elim 0 s.rateInUse), stations := [] }
  (s.listStations k (s.line.metersOf k)).tell (.boundaryCheck k)

/-- R131: BOUNDARY passes to OPENING when every station of the list is ended. -/
def State.boundaryCheck (s : State) (k : Nat) : State :=
  match s.context k with
  | some c =>
    if c.step == .boundary && c.stations.all fun l => l.state == .ended then s.enterOpening k else s
  | none => s

/-- R130: the incoming set is ONLINE in PREPARING. -/
def State.incomingOnline (s : State) (k : Nat) (c : Changeover) (i : Nat) : State :=
  if s.headroom i k then
    if c.kind == .restore then s.enterClose k .closing else s.enterBoundary k
  else s.endChangeover k c .noHeadroom c.fallback

/-- R130: PREPARING is entered: the prepare timer starts and the incoming set is dealt with by its state. -/
def State.enterPreparing (s : State) (k : Nat) : State :=
  let s := s.startStageTimer k .prepare Config.prepareTenths
  match (s.stage k).bind Stage.incoming, s.context k with
  | some i, some c =>
    match s.setStateOf i with
    | some .stopped => s.startOrder i
    | some .cooling => s.startOrder i
    | some .online => s.incomingOnline k c i
    | some .cranking => s
    | some .warming => s
    | some .unknown => s
    | some .faulted => s
    | some .lost => s
    | none => s
  | _, _ => s

/-- R126, R127, R138: a changeover begins: the stage becomes CHANGING and STAGE STATE is posted, then PREPARING is entered
(DESIGN CHOICE, log entry 42: no rule orders STAGE STATE and what the start order posts). -/
def State.beginChangeover (s : State) (k : Nat) (kind : ChangeKind) (source : Option Input) (target : Input) : State :=
  (s.enterStage k (.changing ⟨kind, source, target, .preparing, none, [], .none, false, none, s.now⟩)).enterPreparing k

/-! ## Automatic transfers -/

/-- R138: the reason a transfer does not begin. -/
def State.noAlternate (s : State) (k : Nat) (x : Stage) (target : Input) : Option Nat :=
  if x.lost then some 7
  else
    match x.setOf target with
    | none => some 1
    | some i =>
      let q := s.setStateOf i
      if (s.lease i).isNone then some 2
      else if (s.set i).elim false fun r => r.fuelLow then some 3
      else if (s.windows.deniesSet .auto i).isSome then some 4
      else if !(q == some .online || q == some .stopped || q == some .cooling || q == some .warming) then some 5
      else if q == some .online && !s.headroom i k then some 6
      else none

/-- R138: a transfer is considered for a FED stage. After DONE of RESET PART none begins (R202), and none that would not
begin is told of either (log entry 36). -/
def State.considerTransfer (s : State) (k : Nat) (kind : ChangeKind) : State :=
  match s.stage k with
  | none => s
  | some x =>
    match x.state with
    | .fed i =>
      if !x.auto || s.loader.resetDue then s
      else
        match s.noAlternate k x i.other with
        | none => s.beginChangeover k kind (some i) i.other
        | some reason =>
          s.post .noAlternate
            (be 1 k ++ be 1 kind.value ++ be 1 (inputValue (some i.other)) ++ be 1 (setValue (x.setOf i.other)) ++ be 1 reason)
    | .unknown => s
    | .dark => s
    | .conflict => s
    | .changing _ => s

/-- R137: the active input is live. -/
def BoardReport.live (x : BoardReport) : Input → Bool
  | .a => x.liveA
  | .b => x.liveB

/-- R137: a FED stage has lost supply. -/
def State.supplyLost (s : State) (x : Stage) (i : Input) : Bool :=
  (x.setOf i).elim false s.failedSet || x.report.elim false fun r => !r.live i

/-- R137: a raise of fuel-low told by the report that began an episode calls for no transfer on the stage. -/
def Told.exempt (k : Nat) (set : Option Nat) : Told → Told
  | .fuelLowRaised i except => if set == some i then .fuelLowRaised i (k :: except) else .fuelLowRaised i except
  | .setChanged i => .setChanged i
  | .fuelLowCleared i => .fuelLowCleared i
  | .outcome c o => .outcome c o
  | .judgeSupply j => .judgeSupply j
  | .boundaryCheck j => .boundaryCheck j
  | .boundaryEnded r => .boundaryEnded r
  | .bill src => .bill src

/-- R137: supply loss is judged for a stage. -/
def State.judgeSupply (s : State) (k : Nat) : State :=
  match s.stage k with
  | none => s
  | some x =>
    match x.state with
    | .fed i =>
      if s.supplyLost x i then
        if x.lossEpisode then s
        else
          { s.changeStage k (fun x => { x with lossEpisode := true }) with
            told := s.told.map (Told.exempt k (x.setOf i)) }.considerTransfer k .supplyLoss
      else s.changeStage k fun x => { x with lossEpisode := false }
    | .unknown => s
    | .dark => s
    | .conflict => s
    | .changing _ => s

/-- Act on each stage in ascending order. -/
def State.eachStage (s : State) (f : State → Nat → State) : State := (List.range 8).foldl f s

/-- R137: fuel-low raised. -/
def State.fuelLowRaised (s : State) (i : Nat) (except : List Nat) : State :=
  s.eachStage fun s k =>
    if !except.contains k && ((s.stage k).bind Stage.fedSet) == some i then s.considerTransfer k .fuelLow else s

/-- R139: fuel-low cleared. -/
def State.fuelLowCleared (s : State) (i : Nat) : State :=
  s.eachStage fun s k =>
    match s.context k with
    | some c =>
      if c.kind == .fuelLow && c.step == .preparing && ((s.stage k).bind Stage.outgoing) == some i then
        s.endChangeover k c .withdrawn c.fallback
      else s
    | none => s

/-! ## What the Set monitor and the Line master tell -/

/-- Whether the context's board command is offered and can still be withdrawn or given up. -/
def State.boardUncommitted (s : State) (c : Changeover) : Bool :=
  match c.board with
  | .offered n => s.line.uncommitted n
  | .none => false
  | .ended => false

/-- R134: the close fails with its command uncommitted: the command is withdrawn or given up first. -/
def State.withdrawClose (s : State) (k : Nat) (c : Changeover) : State :=
  (match c.board with
    | .offered n => s.recall n
    | .none => s
    | .ended => s).closeFails k c

/-- R130 to R134: the incoming set has become FAULTED or LOST. -/
def State.incomingFailed (s : State) (k : Nat) (c : Changeover) : State :=
  match c.step with
  | .preparing => s.endChangeover k c .incomingFault c.fallback
  | .boundary => s.endChangeover k c .incomingFault c.fallback
  | .opening => if s.boardUncommitted c then s.endChangeover k c .incomingFault c.fallback else s
  | .dead => s.deadFailed k c
  | .closing => if s.boardUncommitted c then s.withdrawClose k c else s
  | .reverting => s

/-- R130 to R134: the incoming set has changed state. -/
def State.incomingChanged (s : State) (k : Nat) (c : Changeover) (i : Nat) : State :=
  if s.failedSet i then s.incomingFailed k c
  else if c.step == .preparing && s.setStateOf i == some .online then s.incomingOnline k c i
  else s

/-- R84: a set has changed state: the changeovers it is incoming for and the stages it feeds, ascending (log entry 33). -/
def State.setChanged (s : State) (i : Nat) : State :=
  s.eachStage fun s k =>
    match s.stage k with
    | none => s
    | some x =>
      match x.context with
      | some c => if x.setOf c.target == some i then s.incomingChanged k c i else s
      | none => if x.fedSet == some i then s.judgeSupply k else s

/-- R122, R130, R131: the board station is lost. -/
def State.boardLost (s : State) (k : Nat) : State :=
  let s := s.changeStage k fun x => { x with lost := true }
  match s.context k with
  | some c =>
    match c.step with
    | .preparing => s.endChangeover k c .boardFault c.fallback
    | .boundary => s.endChangeover k c .boardFault c.fallback
    | .opening => s
    | .dead => s
    | .closing => s
    | .reverting => s
  | none => s

/-- R122: the board station is removed. -/
def State.boardRemoved (s : State) (k : Nat) : State :=
  (s.changeStage k fun x => { x with report := none, lost := false }).enterStage k .unknown

/-- R132: OPENING fails: UNKNOWN when the board is lost and the OPEN INPUT had become committed. -/
def State.openFails (s : State) (k : Nat) (c : Changeover) (committed : Bool) : State :=
  let lost := (s.stage k).elim false fun x => x.lost
  s.endChangeover k c .boardFault (if lost && committed then .unknown else c.fallback)

/-- R132, R134, R135: the context's board command ended. -/
def State.boardEnded (s : State) (k : Nat) (c : Changeover) (cmd : Command) (o : CommandOutcome) : State :=
  match o with
  | .done =>
    (s.changeContext k fun c => { c with board := .ended }).startStageTimer k .confirm Config.confirmTenths
  | .removed => s
  | .noAnswer =>
    match c.step with
    | .opening => s.openFails k c cmd.committed
    | .closing => s.closeFails k { c with board := .ended }
    | .reverting => s.endChangeover k c .closeFailed .dark
    | .preparing => s
    | .boundary => s
    | .dead => s

/-- R132, R134, R135: a board command ended; one of an ended step is discarded. The end of a close may free an
interlock (R134). -/
def State.boardOutcome (s : State) (cmd : Command) (o : CommandOutcome) : State :=
  match s.context cmd.object with
  | none => s
  | some c => if c.board == .offered cmd.serial then s.boardEnded cmd.object c cmd o else s.tryClose cmd.object

/-- Change the listed station of a serial. -/
def Changeover.list (c : Changeover) (serial : Nat) (q : ListedState) : Changeover :=
  { c with stations := c.stations.map fun l => if l.serial == serial then { l with state := q } else l }

/-- Whether a BOUNDARY step lists a serial in a state. -/
def Changeover.lists (c : Changeover) (serial : Nat) (q : ListedState) : Bool :=
  c.step == .boundary && c.stations.any fun l => l.serial == serial && l.state == q

/-- The stage whose BOUNDARY lists a serial in a state. -/
def State.stageListing (s : State) (serial : Nat) (q : ListedState) : Option Nat :=
  s.stages.find fun x => x.context.elim false fun c => c.lists serial q

/-- R131: a READ COUNTERS of a boundary ended; one of an ended changeover is discarded (R128). -/
def State.countersOutcome (s : State) (cmd : Command) (o : CommandOutcome) : State :=
  match s.stageListing cmd.serial .awaitingReading with
  | none => s
  | some k =>
    match o with
    | .done =>
      let outgoing := (s.stage k).bind Stage.outgoing
      let rate := ((s.context k).bind fun c => c.rate).getD 0
      (s.changeContext k fun c => c.list cmd.serial .awaitingBilling).handOver ⟨k, cmd.object, outgoing, rate, cmd.serial⟩
    | .noAnswer =>
      ((s.straddle cmd.object).changeContext k fun c => c.list cmd.serial .ended).tell (.boundaryCheck k)
    | .removed => (s.changeContext k fun c => c.list cmd.serial .ended).tell (.boundaryCheck k)

/-- R131, R164: a boundary request has ended; one of an ended changeover is discarded (R128). -/
def State.boundaryEnded (s : State) (r : BoundaryRequest) : State :=
  match s.stageListing r.serial .awaitingBilling with
  | none => s
  | some k => (s.changeContext k fun c => c.list r.serial .ended).tell (.boundaryCheck k)

/-! ## Board reports -/

/-- R129: positions of the inputs: both open, the from input alone closed, the to input alone closed, both closed. -/
inductive Position where
  | n | f | t | x
deriving DecidableEq, Repr

/-- R129: the position that closed inputs show, toward a to input. -/
def positionOf (target : Input) (closedA closedB : Bool) : Position :=
  match closedA, closedB, target with
  | false, false, _ => .n
  | true, true, _ => .x
  | true, false, .a => .t
  | true, false, .b => .f
  | false, true, .a => .f
  | false, true, .b => .t

/-- R129: judgements of a report. -/
inductive BoardVerdict where
  | expected | held | overridden | toDead | interlockFree | success
deriving DecidableEq, Repr

/-- R129: the table. `offered`: the step's CLOSE INPUT has been offered. -/
def boardVerdict (step : ChangeStep) (restore offered : Bool) (p : Position) : BoardVerdict :=
  match step, restore, offered, p with
  | .preparing, true, _, .n => .expected
  | .preparing, true, _, _ => .overridden
  | .preparing, false, _, .f => .expected
  | .preparing, false, _, _ => .overridden
  | .boundary, _, _, .f => .expected
  | .boundary, _, _, _ => .overridden
  | .opening, _, _, .n => .toDead
  | .opening, _, _, .f => .expected
  | .opening, _, _, _ => .overridden
  | .dead, _, _, .n => .expected
  | .dead, _, _, .f => .held
  | .dead, _, _, .t => .held
  | .dead, _, _, .x => .overridden
  | .closing, _, false, .n => .interlockFree
  | .closing, _, false, .f => .held
  | .closing, _, true, .n => .expected
  | .closing, _, true, .f => .overridden
  | .closing, _, _, .t => .success
  | .closing, _, _, .x => .overridden
  | .reverting, _, false, .n => .interlockFree
  | .reverting, _, false, .t => .held
  | .reverting, _, true, .n => .expected
  | .reverting, _, true, .t => .overridden
  | .reverting, _, _, .f => .success
  | .reverting, _, _, .x => .overridden

/-- R120: the state a report resynchronizes a stage to. -/
def resyncState (closedA closedB : Bool) : StageState :=
  match closedA, closedB with
  | true, false => .fed .a
  | false, true => .fed .b
  | false, false => .dark
  | true, true => .conflict

/-- R129: success ends CLOSING on the to input and REVERTING on the from input. -/
def State.closeSucceeds (s : State) (k : Nat) (c : Changeover) : State :=
  match c.step with
  | .reverting => s.endChangeover k c (if c.aborted then .abortedReversed else .reverted) c.fallback
  | .closing => s.endChangeover k c .done (.fed c.target)
  | .preparing => s
  | .boundary => s
  | .opening => s
  | .dead => s

/-- R132: OPENING is confirmed: an uncommitted OPEN INPUT is withdrawn and DEAD is entered. -/
def State.openConfirmed (s : State) (k : Nat) (c : Changeover) : State :=
  (match c.board with
    | .offered n => s.recall n
    | .none => s
    | .ended => s).enterDead k

/-- R129: a report judged by the step of the changeover. -/
def State.judgeBoard (s : State) (k : Nat) (c : Changeover) (x : BoardReport) : State :=
  match boardVerdict c.step (c.kind == .restore) (c.board != .none) (positionOf c.target x.closedA x.closedB) with
  | .expected => s
  | .held => s
  | .overridden => s.endChangeover k c .overridden (resyncState x.closedA x.closedB)
  | .toDead => s.openConfirmed k c
  | .interlockFree => s.tryClose k
  | .success => s.closeSucceeds k c

/-- R120: a BOARD report reaches its stage. -/
def State.applyBoardReport (s : State) (k : Nat) (x : BoardReport) : State :=
  let s := s.changeStage k fun y => { y with report := some x, lost := false }
  match s.context k with
  | some c => s.judgeBoard k c x
  | none => (s.enterStage k (resyncState x.closedA x.closedB)).judgeSupply k

/-! ## Timers -/

/-- Whether a context's timer of a kind has expired. -/
def Changeover.expired (c : Changeover) (t : StageTimerKind) : Bool := c.timer == some ⟨t, 0⟩

/-- R130: the prepare timer expires. -/
def prepareExpiry (s : State) (k : Nat) : State :=
  match s.context k with
  | some c =>
    if c.step == .preparing && c.expired .prepare then s.endChangeover k c .notReady c.fallback else s
  | none => s

/-- R132, R134, R135: the confirm timer expires in a step. -/
def State.confirmExpired (s : State) (k : Nat) (c : Changeover) : State :=
  match c.step with
  | .opening => s.openFails k c true
  | .closing => if c.board == .none then s.endChangeover k c .boardFault .dark else s.closeFails k c
  | .reverting => s.endChangeover k c .closeFailed .dark
  | .preparing => s
  | .boundary => s
  | .dead => s

/-- R132, R134, R135: the confirm timer expires. -/
def confirmExpiry (s : State) (k : Nat) : State :=
  match s.context k with
  | some c => if c.expired .confirm then s.confirmExpired k c else s
  | none => s

/-- R133: the dead timer expires. -/
def deadTimeExpiry (s : State) (k : Nat) : State :=
  match s.context k with
  | some c => if c.step == .dead && c.expired .dead then s.enterClose k .closing else s
  | none => s

/-! ## Requests -/

/-- The input that a field value codes (R123). -/
def inputOf (n : Nat) : Input := if n == 0 then .a else .b

/-- R123: ASSIGN INPUT. -/
def ownAssignInput (fields : List Nat) (s : State) : Answered :=
  let k := arg fields 1
  let i := inputOf (arg fields 2)
  let set := arg fields 3
  let setting := set != 255
  let x := (s.stage k).getD .reset
  let value := if setting then some set else none
  unlessRefused s
    [(decide (7 < k), refuse .range 1), (decide (1 < arg fields 2), refuse .range 2),
      (decide (11 < set) && setting, refuse .range 3), (x.isChanging, refuse .state 1),
      (x.activeInput == some i, refuse .state 2), (setting && (s.set set).isNone, refuse .absent 3),
      denied (if setting then s.windows.deniesSet .crew set else none) 3,
      (setting && x.setOf i.other == some set, refuse .conflict 3)]
    (done
      (s.changeStage k fun x =>
        match i with
        | .a => { x with inputA := value }
        | .b => { x with inputB := value }) [])

/-- R124: SET STAGE. -/
def ownSetStage (fields : List Nat) (s : State) : Answered :=
  let k := arg fields 1
  let auto := arg fields 2
  let dead := arg fields 3
  unlessRefused s
    [(decide (7 < k), refuse .range 1), (decide (1 < auto), refuse .range 2),
      (dead == 0 || decide (10 < dead), refuse .range 3)]
    (done (s.changeStage k fun x => { x with auto := auto == 1, deadTime := dead }) [])

/-- R126, R127: the checks on an incoming set, from 'names no set' on; `field` is the field they name. -/
def incomingChecks (s : State) (k : Nat) (set : Option Nat) (field : Nat) : List (Bool × Reply) :=
  let q := set.bind s.setStateOf
  [(set.isNone, refuse .absent field),
    ((set.bind s.lease).isNone, refuse .notLeased field),
    denied (set.bind fun i => s.windows.deniesSet .crew i) field,
    (q == some .faulted || q == some .lost || q == some .unknown, refuse .state field),
    (q == some .online && !set.elim false (fun i => s.headroom i k), refuse .noHeadroom field)]

/-- R126: CHANGE OVER. -/
def ownChangeOver (fields : List Nat) (s : State) : Answered :=
  let k := arg fields 1
  let x := (s.stage k).getD .reset
  let active := x.activeInput.getD .a
  unlessRefused s
    ([(s.loader.resetDue, refuse .state 0), (decide (7 < k), refuse .range 1),
        (!s.line.enrolled .board k, refuse .absent 1), (!x.state.isFed, refuse .state 1), (x.lost, refuse .state 1)] ++
      incomingChecks s k (x.setOf active.other) 1)
    (done (s.beginChangeover k .requested (some active) active.other) [])

/-- R127: RESTORE STAGE. The CLOSE INPUT that an ONLINE set lets CLOSING offer at once is an offer of the sequencer's own,
which waits for room (log entry 39). -/
def ownRestoreStage (fields : List Nat) (s : State) : Answered :=
  let k := arg fields 1
  let i := inputOf (arg fields 2)
  let x := (s.stage k).getD .reset
  unlessRefused s
    ([(s.loader.resetDue, refuse .state 0), (decide (7 < k), refuse .range 1),
        (decide (1 < arg fields 2), refuse .range 2), (!s.line.enrolled .board k, refuse .absent 1),
        (x.state != .dark, refuse .state 1), (x.lost, refuse .state 1)] ++
      incomingChecks s k (x.setOf i) 2)
    (done (s.beginChangeover k .restore none i) [])

/-- R136: ABORT CHANGEOVER of a CHANGING stage, by its step. A CLOSE INPUT that REVERTING offers at once is an offer of the
sequencer's own, which waits for room (log entry 39). -/
def abortStep (s : State) (k : Nat) (c : Changeover) : Answered :=
  match c.step with
  | .preparing => done (s.endChangeover k c .aborted c.fallback) []
  | .boundary => done (s.endChangeover k c .aborted c.fallback) []
  | .opening =>
    if s.boardUncommitted c then done (s.endChangeover k c .aborted c.fallback) []
    else (s, some (refuse .tooLate 0))
  | .dead => done ((s.changeContext k fun c => { c with aborted := true }).enterClose k .reverting) []
  | .closing => (s, some (refuse .tooLate 0))
  | .reverting => (s, some (refuse .tooLate 0))

/-- R136: ABORT CHANGEOVER. -/
def ownAbortChangeover (fields : List Nat) (s : State) : Answered :=
  let k := arg fields 1
  if 7 < k then (s, some (refuse .range 1))
  else
    match s.context k with
    | none => (s, some (refuse .state 1))
    | some c => abortStep s k c

/-- R140: coding of the context's board command. -/
def State.boardOrderValue (s : State) : BoardOrder → Nat
  | .none => 0
  | .ended => 4
  | .offered n =>
    if s.line.waits n then 1
    else if (s.line.queued n).elim false fun c => c.committed then 3
    else 2

/-- R140: the inputs byte of a board report. -/
def BoardReport.inputs (x : BoardReport) : Nat := flagBits [x.closedA, x.closedB, x.liveA, x.liveB]

/-- R140: the changeover fields; 0 for a captured rate and a time left that do not exist (log entry 34). -/
def State.contextBytes (s : State) (x : Stage) : Option Changeover → List Byte
  | some c =>
    be 1 c.kind.value ++ be 1 c.step.value ++ be 1 (inputValue c.source) ++ be 1 (inputValue (some c.target)) ++
      be 1 (setValue (x.setOf c.target)) ++ be 1 (setValue (c.source.bind x.setOf)) ++ be 2 (c.rate.getD 0) ++
      be 1 c.stations.length ++ be 1 (c.stations.countP fun l => l.state == .ended) ++
      be 1 (s.boardOrderValue c.board) ++ be 1 (flag c.aborted) ++ be 2 (c.timer.elim 0 fun t => t.left) ++ c.started.bytes
  | none => List.replicate 18 0

/-- R140: the DONE data of READ STAGE; 0 for the inputs of a stage with no report (log entry 34). -/
def State.stageData (s : State) (k : Nat) (x : Stage) : List Byte :=
  be 1 k ++ be 1 x.state.value ++ be 1 (inputValue x.activeInput) ++ be 1 (setValue x.activeSet) ++
    be 1 (setValue x.inputA) ++ be 1 (setValue x.inputB) ++ be 1 (flag x.auto) ++ be 1 x.deadTime ++
    be 1 (flagBits
      [s.line.enrolled .board k, x.lost, x.report.isSome, x.lossEpisode, s.closeOutstanding k, x.isChanging]) ++
    be 1 (x.report.elim 0 BoardReport.inputs) ++ be 2 x.demand ++ be 1 (s.line.metersOf k).length ++
    s.contextBytes x x.context

/-- R140: READ STAGE. -/
def ownReadStage (fields : List Nat) (s : State) : Answered :=
  let k := arg fields 1
  match s.stage k with
  | none => (s, some (refuse .range 1))
  | some x => done s (s.stageData k x)

end Sys2Proof.Machine
end

