-- ==== Sys2Proof/Machine/Tally.lean ====
section
/-! DEFINITION. The Tally controller (09, sections 9.3 to 9.8; 10): the check code, records, reads with their faults, the
total cache, the work list. -/

namespace Sys2Proof.Machine

/-! ## The check code -/

/-- R178: signatures of data bits 0 to 63: the 56 values of weight 3 in ascending order, then eight of weight 5. -/
def dataSignatures : List Byte :=
  List.flatten
    [[0x07, 0x0B, 0x0D, 0x0E, 0x13, 0x15, 0x16, 0x19, 0x1A, 0x1C, 0x23, 0x25, 0x26, 0x29],
      [0x2A, 0x2C, 0x31, 0x32, 0x34, 0x38, 0x43, 0x45, 0x46, 0x49, 0x4A, 0x4C, 0x51, 0x52],
      [0x54, 0x58, 0x61, 0x62, 0x64, 0x68, 0x70, 0x83, 0x85, 0x86, 0x89, 0x8A, 0x8C, 0x91],
      [0x92, 0x94, 0x98, 0xA1, 0xA2, 0xA4, 0xA8, 0xB0, 0xC1, 0xC2, 0xC4, 0xC8, 0xD0, 0xE0],
      [0x1F, 0x2F, 0x37, 0x3B, 0x3D, 0x3E, 0x4F, 0x57]]

/-- R178: signatures of check bits 0 to 7. -/
def checkSignatures : List Byte := [0x01, 0x02, 0x04, 0x08, 0x10, 0x20, 0x40, 0x80]

/-- The exclusive OR of the signatures of the data bits that are 1, from bit `i` on. -/
def checkFrom (d : BitVec 64) (i : Nat) : List Byte → Byte
  | [] => 0
  | g :: rest => (if d.getLsbD i then g else 0) ^^^ checkFrom d (i + 1) rest

/-- R178: the check over 64 data bits. -/
def checkOf (d : BitVec 64) : Byte := checkFrom d 0 dataSignatures

/-- R178: a word of 8 data bytes and the check byte, stored inverted. -/
def storedWord (d : BitVec 64) : List Byte := be 8 d.toNat ++ [~~~(checkOf d)]

/-- R178: a word as read. -/
inductive WordRead where
  | good (d : BitVec 64)
  | corrected (d : BitVec 64)
  | uncorrectable
deriving DecidableEq, Repr

/-- R178: what a syndrome makes of the data. -/
def judgeSyndrome (d : BitVec 64) (syndrome : Byte) : WordRead :=
  if syndrome == 0#8 then .good d
  else if checkSignatures.contains syndrome then .corrected d
  else if dataSignatures.contains syndrome then
    .corrected (d ^^^ (1#64 <<< dataSignatures.idxOf syndrome))
  else .uncorrectable

/-- R178: nine stored bytes as read. -/
def readWord (bs : List Byte) : WordRead :=
  let d := BitVec.ofNat 64 (fromBe (bs.take 8))
  judgeSyndrome d (~~~(bs.getD 8 0) ^^^ checkOf d)

/-! ## Records -/

/-- 10, section 10.2: the six words of a record. -/
def AccountRecord.words (r : AccountRecord) : List (BitVec 64) :=
  [r.this.b0 ++ r.this.b1, r.this.b2 ++ r.this.b3, r.last.b0 ++ r.last.b1, r.last.b2 ++ r.last.b3,
    r.thisFuel ++ r.lastFuel, r.festival ++ r.period ++ r.tag ++ r.straddles]

/-- 10, section 10.2: the record that six words spell. -/
def recordOf (w0 w1 w2 w3 w4 w5 : BitVec 64) : AccountRecord where
  this := ⟨w0.extractLsb' 32 32, w0.extractLsb' 0 32, w1.extractLsb' 32 32, w1.extractLsb' 0 32⟩
  last := ⟨w2.extractLsb' 32 32, w2.extractLsb' 0 32, w3.extractLsb' 32 32, w3.extractLsb' 0 32⟩
  thisFuel := w4.extractLsb' 32 32
  lastFuel := w4.extractLsb' 0 32
  festival := w5.extractLsb' 24 40
  period := w5.extractLsb' 16 8
  tag := w5.extractLsb' 14 2
  straddles := w5.extractLsb' 0 14

/-- R177: a record's 54 bytes. -/
def AccountRecord.bytes (r : AccountRecord) : List Byte := r.words.flatMap storedWord

/-- R179: the outcome of a read: the record; the corrected record, how many words were corrected and the lowest; the
lowest uncorrectable word. -/
inductive RecordRead where
  | good (r : AccountRecord)
  | corrected (r : AccountRecord) (words first : Nat)
  | uncorrectable (word : Nat)
deriving DecidableEq, Repr

/-- R178: the data of a word that is not uncorrectable. -/
def WordRead.data : WordRead → BitVec 64
  | .good d => d
  | .corrected d => d
  | .uncorrectable => 0

/-- R178: whether a word was corrected. -/
def WordRead.wasCorrected : WordRead → Bool
  | .corrected _ => true
  | .good _ => false
  | .uncorrectable => false

/-- R179: the record's outcome from all its words' judgements. -/
def judgeWords (ws : List WordRead) : RecordRead :=
  match ws.findIdx? fun w => w == .uncorrectable with
  | some k => .uncorrectable k
  | none =>
    match ws.map WordRead.data with
    | [w0, w1, w2, w3, w4, w5] =>
      let r := recordOf w0 w1 w2 w3 w4 w5
      match ws.findIdx? WordRead.wasCorrected with
      | some k => .corrected r (ws.countP WordRead.wasCorrected) k
      | none => .good r
    | _ => .uncorrectable 0

/-- R179: 54 stored bytes as read. -/
def readRecordBytes (bs : List Byte) : RecordRead :=
  judgeWords ((List.range 6).map fun k => readWord ((bs.drop (9 * k)).take 9))

/-- 10, section 10.2: where an account's record begins (both banks in one address space: bank b from b × 27,648). -/
def recordAddress (a : Nat) : Nat := a * Config.recordBytes

/-- R176: the account's bank is present and its memory answers. -/
def State.bankAnswers (s : State) (a : Nat) : Bool :=
  s.bankPresent a && if a < 512 then s.bank0Fitted else s.bank1Fitted

/-- R176, R179: an account's record as read; a memory that does not answer gives zeros. -/
def State.readRecord (s : State) (a : Nat) : RecordRead :=
  readRecordBytes
    (if s.bankAnswers a then Memory.readBytes s.tallyMem (recordAddress a) Config.recordBytes
      else List.replicate Config.recordBytes 0)

/-- R176, R177: a record written whole; a write to a memory that does not answer is lost. -/
def State.writeRecord (s : State) (a : Nat) (r : AccountRecord) : State :=
  if s.bankAnswers a then { s with tallyMem := Memory.writeBytes s.tallyMem (recordAddress a) r.bytes } else s

/-! ## Reads and faults -/

/-- R182: coding of the operations. -/
def ReadOp.value : ReadOp → Nat
  | .fill => 1
  | .update => 2
  | .statement => 3

/-- R182: coding of the kind. -/
def faultKindValue (uncorrectable : Bool) : Nat := if uncorrectable then 2 else 1

/-- R182: a fault fills the empty latch and TALLY FAULT is posted; `result` is the quarantine result. -/
def State.fillLatch (s : State) (uncorrectable : Bool) (a word : Nat) (op : ReadOp) (result : Nat) : State :=
  { s with tally.fault := some ⟨uncorrectable, a, word, op, s.now, false⟩ }.post .tallyFault
    (be 1 (faultKindValue uncorrectable) ++ be 2 a ++ be 1 word ++ be 1 op.value ++ be 1 result)

/-- R180: a corrected read. -/
def State.readCorrected (s : State) (a : Nat) (r : AccountRecord) (words first : Nat) (op : ReadOp) : State :=
  let s := s.writeRecord a r
  let s := { s with tally.corrected := min (s.tally.corrected + words) 65535 }
  if s.tally.fault.isNone then s.fillLatch false a first op 0 else s

/-- R181, R184: an uncorrectable read. -/
def State.readFailed (s : State) (a word : Nat) (op : ReadOp) : State :=
  let room := decide (s.tally.quarantine.length < Config.quarantineCap)
  let s := if room then { s with tally.quarantine := s.tally.quarantine ++ [a] } else s
  match s.tally.fault with
  | none => s.fillLatch true a word op (if room then 1 else 2)
  | some l => { s with tally.fault := some { l with more := true } }

/-- R179 to R181: read an account's record: the record, or nothing where a word cannot be corrected. -/
def State.fetchRecord (s : State) (a : Nat) (op : ReadOp) : State × Option AccountRecord :=
  match s.readRecord a with
  | .good r => (s, some r)
  | .corrected r words first => (s.readCorrected a r words first op, some r)
  | .uncorrectable word => (s.readFailed a word op, none)

/-! ## The lazy roll and the addition -/

/-- R191: the lazy roll to the current period. -/
def AccountRecord.roll (r : AccountRecord) (c : Nat) : AccountRecord :=
  if r.period.toNat = c then r
  else if r.period.toNat + 1 = c then
    { r with last := r.this, lastFuel := r.thisFuel, this := .zero, thisFuel := 0, period := BitVec.ofNat 8 c }
  else { r with last := .zero, lastFuel := 0, this := .zero, thisFuel := 0, period := BitVec.ofNat 8 c }

/-- R166, step 5: energy added to a band. -/
def Bands.add (b : Bands) (band n : Nat) : Bands :=
  match band with
  | 0 => { b with b0 := satAdd b.b0 n }
  | 1 => { b with b1 := satAdd b.b1 n }
  | 2 => { b with b2 := satAdd b.b2 n }
  | _ => { b with b3 := satAdd b.b3 n }

/-- R166, step 5. -/
def AccountRecord.add (r : AccountRecord) (u : AccountUpdate) (band : Nat) : AccountRecord :=
  { r with
    this := r.this.add band u.delta.toNat
    festival := satAdd r.festival u.delta.toNat
    thisFuel := satAdd r.thisFuel u.fuelShare
    straddles := satAdd r.straddles (flag u.straddle)
    tag := u.tag }

/-- R166, steps 4 and 5. -/
def State.updated (s : State) (r : AccountRecord) (u : AccountUpdate) : AccountRecord :=
  (r.roll s.period.number).add u s.band

/-! ## The total cache -/

/-- R167: the line that can hold an account. -/
def lineOf (a : Nat) : Nat := a % 64

/-- A line takes a value. -/
def State.setLine (s : State) (n : Nat) (l : Option CacheLine) : State := { s with tally.lines := s.tally.lines.set n l }

/-- The valid line that holds an account. -/
def State.lineHolding (s : State) (a : Nat) : Option CacheLine :=
  (s.tally.lines.used (lineOf a)).filter fun l => l.account == a

/-- R171, R173: a valid dirty line is written back and is clean; `true` when it was. -/
def State.writeBack (s : State) (n : Nat) : State × Bool :=
  match s.tally.lines.used n with
  | some l =>
    if l.dirty then ((s.writeRecord l.account l.record).setLine n (some { l with dirty := false }), true) else (s, false)
  | none => (s, false)

/-- R168 to R171: a record brought into the account's line by a fill: the victim is written back, the record read. -/
def State.fill (s : State) (a : Nat) : State × Option AccountRecord := ((s.writeBack (lineOf a)).1).fetchRecord a .fill

/-- R168, R169: what HELD and THROUGH leave: the line with the account, the record written through or not. -/
def State.keepLine (s : State) (a : Nat) (r : AccountRecord) (m : TotalMode) : State :=
  match m with
  | .held => s.setLine (lineOf a) (some ⟨true, a, r⟩)
  | .through => (s.writeRecord a r).setLine (lineOf a) (some ⟨false, a, r⟩)
  | .direct => (s.writeRecord a r).setLine (lineOf a) none

/-- R170: the read-modify-write of a DIRECT update. -/
def State.directUpdate (s : State) (u : AccountUpdate) : State × UpdateOutcome :=
  match s.fetchRecord u.account .update with
  | (s, some r) => (s.writeRecord u.account (s.updated r u), .performed)
  | (s, none) => (s, .unreadable)

/-- R168, R169: an update that must fill its line. -/
def State.fillUpdate (s : State) (u : AccountUpdate) (m : TotalMode) : State × UpdateOutcome :=
  match s.fill u.account with
  | (s, some r) => (s.keepLine u.account (s.updated r u) m, .performed)
  | (s, none) => (s, .unreadable)

/-- R166: an account update performed. -/
def State.performUpdate (s : State) (u : AccountUpdate) : State × UpdateOutcome :=
  if s.quarantined u.account then (s, .quarantined)
  else
    let m := s.windows.mode u.account
    match s.lineHolding u.account, m with
    | some l, m => (s.keepLine u.account (s.updated l.record u) m, .performed)
    | none, .direct => s.directUpdate u
    | none, m => s.fillUpdate u m

/-! ## The work list -/

/-- Whether an operation is an account update. -/
def WorkOp.isUpdate : WorkOp → Bool
  | .update _ => true
  | .statement _ _ => false
  | .rewrite _ _ => false
  | .flush _ _ => false
  | .windowWriteBack _ _ => false
  | .softFlush _ => false
  | .initTally _ _ _ => false

/-- Whether an operation is INIT TALLY. -/
def WorkOp.isInit : WorkOp → Bool
  | .initTally _ _ _ => true
  | .update _ => false
  | .statement _ _ => false
  | .rewrite _ _ => false
  | .flush _ _ => false
  | .windowWriteBack _ _ => false
  | .softFlush _ => false

/-- R165, R188: the operation the controller performs next: the front one, passing over account updates while INIT TALLY
is outstanding; with the rest of the list. -/
def takeFront (work : List WorkOp) : Option (WorkOp × List WorkOp) :=
  let passed := work.any WorkOp.isInit
  let n := work.findIdx fun o => !(passed && o.isUpdate)
  work[n]?.map fun o => (o, work.eraseIdx n)

/-- R165: perform the next operation where `f` takes it; otherwise nothing happens (log entry 2). `f` is given the state
with the operation off the list. -/
def State.performNext (s : State) (f : WorkOp → Option (State → State)) : State :=
  match takeFront s.tally.work with
  | none => s
  | some (o, rest) =>
    match f o with
    | some g => g { s with tally.work := rest }
    | none => s

/-- R165: an operation with steps left returns to the back of the list. -/
def State.requeue (s : State) (o : WorkOp) : State := { s with tally.work := s.tally.work ++ [o] }

/-- R166: ACCOUNT UPDATE: the outcome goes to the billing, which ends. -/
def performAccountUpdate (s : State) : State :=
  s.performNext fun o =>
    match o with
    | .update u => some fun s => (s.performUpdate u).1.endBilling u.source (s.performUpdate u).2
    | _ => none

/-- R172: the DONE data of STATEMENT; `source`: 0 tally memory, 1 clean line, 2 dirty line. -/
def State.statementData (s : State) (a source : Nat) (r : AccountRecord) : List Byte :=
  let r := r.roll s.period.number
  be 2 a ++ be 1 source ++
    be 4 r.this.b0.toNat ++ be 4 r.this.b1.toNat ++ be 4 r.this.b2.toNat ++ be 4 r.this.b3.toNat ++
    be 4 r.last.b0.toNat ++ be 4 r.last.b1.toNat ++ be 4 r.last.b2.toNat ++ be 4 r.last.b3.toNat ++
    be 4 r.thisFuel.toNat ++ be 4 r.lastFuel.toNat ++ be 5 r.festival.toNat ++ be 1 r.period.toNat ++ be 1 r.tag.toNat ++
    be 2 r.straddles.toNat ++ be 1 (s.windows.mode a).value

/-- R172: a STATEMENT performed. -/
def State.statementOf (s : State) (a : Nat) : State × Reply :=
  if !s.bankPresent a then (s, refuse .absent 1)
  else if s.quarantined a then (s, refuse .state 1)
  else
    match s.lineHolding a with
    | some l => (s, .done (s.statementData a (if l.dirty then 2 else 1) l.record))
    | none =>
      match s.fetchRecord a .statement with
      | (s, some r) => (s, .done (s.statementData a 0 r))
      | (s, none) => (s, refuse .state 1)

/-- R172: PERFORM STATEMENT. -/
def performStatement (s : State) : State :=
  s.performNext fun o =>
    match o with
    | .statement p a => some fun s => (s.statementOf a).1.answer p (s.statementOf a).2
    | _ => none

/-- R186: a rewrite performed. -/
def State.rewriteRecord (s : State) (a : Nat) (r : AccountRecord) : State :=
  let r := { r with period := BitVec.ofNat 8 s.period.number }
  let gone := s.quarantined a
  let s := s.writeRecord a r
  let s := if (s.lineHolding a).isSome then s.setLine (lineOf a) (some ⟨false, a, r⟩) else s
  { s with tally.quarantine := s.tally.quarantine.filter fun x => x != a }.answer .office
    (.done (be 1 s.period.number ++ be 1 (flag gone)))

/-- R186: PERFORM REWRITE. -/
def performRewrite (s : State) : State :=
  s.performNext fun o =>
    match o with
    | .rewrite a r => some fun s => s.rewriteRecord a r
    | _ => none

/-- The last line of the cache. -/
def lastLine : Nat := 63

/-- R173: one step of FLUSH TOTALS. -/
def flushStep (s : State) : State :=
  s.performNext fun o =>
    match o with
    | .flush n written =>
      some fun s =>
        let count := written + flag (s.writeBack n).2
        let s := (s.writeBack n).1
        if n < lastLine then s.requeue (.flush (n + 1) count) else s.answer .office (.done (be 1 count))
    | _ => none

/-- R42: the invalidation pass visits a line. -/
def State.invalidateDirect (s : State) (n : Nat) : State :=
  match s.tally.lines.used n with
  | some l => if s.windows.mode l.account == .direct then s.setLine n none else s
  | none => s

/-- R42: one step of the window write-back. -/
def windowWriteBackStep (s : State) : State :=
  s.performNext fun o =>
    match o with
    | .windowWriteBack .writeBack n =>
      some fun s =>
        (s.writeBack n).1.requeue
          (if n < lastLine then .windowWriteBack .writeBack (n + 1) else .windowWriteBack .invalidate 0)
    | .windowWriteBack .invalidate n =>
      some fun s =>
        let s := s.invalidateDirect n
        if n < lastLine then s.requeue (.windowWriteBack .invalidate (n + 1)) else s.answer .office (.done [])
    | _ => none

/-- R202: whether one of the three conditions refuses RESET PART. -/
def State.resetRefused (s : State) : Bool := s.anyChannelBusy || s.anyChanging || s.period.close.isSome

/-- R175, R202: one step of the soft-reset flush. -/
def softResetFlushStep (s : State) : State :=
  s.performNext fun o =>
    match o with
    | .softFlush n =>
      some fun s =>
        let s := (s.writeBack n).1
        if n < lastLine then s.requeue (.softFlush (n + 1))
        else if s.resetRefused then s.answer .office (refuse .state 0)
        else { s with loader.resetDue := true }.answer .office (.done [])
    | _ => none

/-- R188: the zero record of the current period. -/
def zeroRecord (c : Nat) : AccountRecord := ⟨.zero, .zero, 0, 0, 0, BitVec.ofNat 8 c, 0, 0⟩

/-- R188: the number after the last account of a present bank. -/
def Tally.endAccount (t : Tally) : Nat := if t.bank1 then 1024 else if t.bank0 then 512 else 0

/-- R188: the account from `n` on that lies in a present bank. -/
def Tally.presentFrom (t : Tally) (n : Nat) : Nat := if t.bank0 then n else max n 512

/-- R188: INIT TALLY ends. -/
def State.initEnds (s : State) (written : Nat) : State :=
  { s with tally.quarantine := [] }.answer .office
    (.done (be 2 written ++ be 1 s.tally.quarantine.length))

/-- R188: one account is initialised (log entry 18 for no present bank). -/
def State.initAccount (s : State) (n written : Nat) : State :=
  let a := s.tally.presentFrom n
  if s.tally.endAccount ≤ a then s.initEnds written
  else
    let s := s.writeRecord a (zeroRecord s.period.number)
    if a + 1 < s.tally.endAccount then s.requeue (.initTally true (a + 1) (written + 1)) else s.initEnds (written + 1)

/-- R188: one step of INIT TALLY; the first makes every line invalid before its write. -/
def initTallyStep (s : State) : State :=
  s.performNext fun o =>
    match o with
    | .initTally begun n written =>
      some fun s =>
        (if begun then s else { s with tally.lines := Table.replicate 64 none }).initAccount n written
    | _ => none

/-! ## Requests -/

/-- R172: STATEMENT is placed on the work list. -/
def ownStatement (p : Port) (fields : List Nat) (s : State) : Answered :=
  let a := arg fields 1
  unlessRefused s [(decide (1023 < a), refuse .range 1)] (s.requeue (.statement p a), none)

/-- The record of a REWRITE ACCOUNT; its period is set when it is performed (R186). -/
def rewriteFields (f : List Nat) : AccountRecord :=
  let w (k : Nat) : Word32 := BitVec.ofNat 32 (arg f k)
  ⟨⟨w 2, w 3, w 4, w 5⟩, ⟨w 6, w 7, w 8, w 9⟩, w 10, w 11, BitVec.ofNat 40 (arg f 12), 0, BitVec.ofNat 2 (arg f 13),
    BitVec.ofNat 14 (arg f 14)⟩

/-- R185: REWRITE ACCOUNT is placed on the work list. -/
def ownRewriteAccount (fields : List Nat) (s : State) : Answered :=
  let a := arg fields 1
  unlessRefused s
    [(decide (1023 < a), refuse .range 1), (decide (3 < arg fields 13), refuse .range 13),
      (decide (16383 < arg fields 14), refuse .range 14), (!s.bankPresent a, refuse .absent 1),
      denied (s.windows.denies .office a) 1]
    (s.requeue (.rewrite a (rewriteFields fields)), none)

/-- R173: FLUSH TOTALS is placed on the work list. -/
def ownFlushTotals (_fields : List Nat) (s : State) : Answered := (s.requeue (.flush 0 0), none)

/-- R187: INIT TALLY is placed on the work list. -/
def ownInitTally (_fields : List Nat) (s : State) : Answered :=
  unlessRefused s
    [(s.billing.sweep.isSome || s.period.close.isSome || s.anyChanging ||
        s.billing.streams.cells.any fun x => !x.requests.isEmpty, refuse .state 0)]
    (s.requeue (.initTally false 0 0), none)

/-- R202: RESET PART places the soft-reset flush on the work list. -/
def ownResetPart (_fields : List Nat) (s : State) : Answered :=
  unlessRefused s [(s.resetRefused, refuse .state 0)] (s.requeue (.softFlush 0), none)

/-- R183: the latch as bytes. -/
def tallyFaultBytes : Option TallyFault → List Byte
  | some l =>
    be 1 1 ++ be 1 (faultKindValue l.uncorrectable) ++ be 2 l.account ++ be 1 l.word ++ be 1 l.op.value ++ l.stamp.bytes ++
      be 1 (flag l.more)
  | none => List.replicate 11 0

/-- R183: READ TALLY FAULT. -/
def ownReadTallyFault (_fields : List Nat) (s : State) : Answered :=
  let q := s.tally.quarantine
  done { s with tally.fault := none }
    (tallyFaultBytes s.tally.fault ++ be 2 s.tally.corrected ++ be 1 q.length ++
      ((List.range 8).flatMap fun k => be 2 (q.getD k 0)))

end Sys2Proof.Machine
end

