-- ==== Sys2Proof/Machine/Periods.lean ====
section
/-! DEFINITION. The Period unit (11): closing a period, the hire queue, and RELEASE SET (R94), which appends to it. -/

namespace Sys2Proof.Machine

/-- R197: coding of the origin. -/
def HireOrigin.value : HireOrigin → Nat
  | .close => 1
  | .release => 2

/-- R94, R195: the hire line of a lease. -/
def hireLine (set : Nat) (origin : HireOrigin) (l : Lease) (period : Nat) (now : Stamp) : HireLine :=
  ⟨set, origin, l.vendor, l.hire, period, l.current, now⟩

/-- R195, R196: whether a leased set finds a place at the final step: a counted set has one; another has one when the
queue and the places of the counted sets still to come leave one (log entry 17). -/
def placeFor (counted : List Nat) (set held : Nat) : Bool :=
  counted.contains set || decide (held + (counted.filter fun i => decide (set < i)).length < Config.hireCap)

/-- R195: the lines appended and the sets carried so far. -/
structure CloseTally where
  lines : List HireLine
  carried : Nat
deriving DecidableEq, Repr

/-- R195, steps 2 to 4, for one leased set. -/
def closeSet (s : State) (counted : List Nat) (old : Nat) (t : CloseTally) (set : Nat) : CloseTally :=
  match s.lease set with
  | none => t
  | some l =>
    if placeFor counted set (s.period.hire.length + t.lines.length) then
      { t with lines := t.lines ++ [hireLine set .close l old s.now] }
    else { t with carried := t.carried + 1 }

/-- R195, step 3: a set's current-period counters start again. -/
def SetRecord.newPeriod (r : SetRecord) : SetRecord :=
  { r with lease := r.lease.map fun l => { l with current := .zero } }

/-- R195: the final step of a close. -/
def State.finalStep (s : State) : State :=
  match s.period.close with
  | none => s
  | some c =>
    let old := s.period.number
    let t := s.leasedSets.foldl (closeSet s c.counted old) ⟨[], 0⟩
    let p : Period := { number := old + 1, opened := s.now, hire := s.period.hire ++ t.lines, close := none }
    let kept : Table 12 (Option SetRecord) :=
      s.sets.mapIdx fun i r => if t.lines.any fun l => l.set == i then r.map SetRecord.newPeriod else r
    let s := { s with sets := kept, period := p }
    s.post .periodClosed (be 1 old ++ be 1 t.lines.length ++ be 1 t.carried ++ s.now.bytes)

/-- R194: the CLOSING sweep called for starts. -/
def State.startClosing (s : State) : State :=
  let p : Period := { s.period with close := s.period.close.map fun c => { c with sweeping := true } }
  State.startSweep { s with period := p } .closing

/-- R163, R194: the sweep has ended. -/
def State.endSweep (s : State) (k : SweepKind) : State :=
  let s := { s with billing.sweep := none }
  match k with
  | .closing => s.finalStep
  | .timed => if s.billing.closingCalled then s.startClosing else s

/-- R160, R163, R164: a source of billings goes on: the sweep to its next circuit or its end, a stream to its next
circuit or request. -/
def State.continueSource (s : State) (src : Source) : State :=
  if s.billing.engaged src then s
  else
    match src with
    | .stream k => s.continueStream k
    | .sweep =>
      match s.billing.sweep with
      | none => s
      | some x => if 96 ≤ x.next then s.endSweep x.kind else s.reach .sweep x.next

/-- R193, R194: a CLOSING sweep is called for: it starts at once where no sweep is in progress. -/
def State.callClosing (s : State) : State :=
  if s.billing.sweep.isNone then s.startClosing else { s with billing.closingCalled := true }

/-- R193: CLOSE PERIOD. -/
def ownClosePeriod (_fields : List Nat) (s : State) : Answered :=
  let leased := s.leasedSets
  unlessRefused s
    [(s.period.close.isSome, refuse .busy 0), (s.period.number == 255, refuse .range 0),
      (decide (Config.hireCap - s.period.hire.length < leased.length), refuse .full 0)]
    ((State.callClosing { s with period := { s.period with close := some ⟨false, leased⟩ } }), some .accepted)

/-- R196: whether the hire queue is full for a release of a set. -/
def Period.fullFor (p : Period) (set : Nat) : Bool :=
  match p.close with
  | none => decide (Config.hireCap ≤ p.hire.length)
  | some c => !c.counted.contains set && decide (Config.hireCap ≤ p.hire.length + c.counted.length)

/-- R94, R196: a set leaves the counted list. -/
def Period.uncount (p : Period) (set : Nat) : Period :=
  { p with close := p.close.map fun c => { c with counted := c.counted.filter fun i => i != set } }

/-- R94: RELEASE SET. -/
def ownReleaseSet (fields : List Nat) (s : State) : Answered :=
  let i := arg fields 1
  unlessRefused s
    (setChecks s i ++
      [denied (s.windows.deniesSet .office i) 1, ((s.lease i).isNone, refuse .notLeased 1),
        (s.setStateOf i != some .stopped || s.anyStage (fun k => k.names i) || s.deliveryOpen i, refuse .state 1),
        (s.period.fullFor i, refuse .full 0)])
    (match s.lease i with
      | none => (s, some (refuse .notLeased 1))
      | some l =>
        let p := s.period.uncount i
        let kept : State := { s with period := { p with hire := p.hire ++ [hireLine i .release l p.number s.now] } }
        done (kept.changeSet i fun r => { r with lease := none }) [])

/-- R197: a hire line, 29 bytes. -/
def HireLine.bytes (l : HireLine) : List Byte :=
  be 1 l.set ++ be 1 l.origin.value ++ be 2 l.vendor ++ be 4 l.hire ++ be 1 l.period ++ be 4 l.counters.runtime.toNat ++
    be 4 l.counters.burned.toNat ++ be 4 l.counters.energy.toNat ++ be 2 l.counters.starts.toNat ++
    be 2 l.counters.gaps.toNat ++ l.stamp.bytes

/-- R197: TAKE HIRE RECORD. -/
def ownTakeHireRecord (_fields : List Nat) (s : State) : Answered :=
  match s.period.hire with
  | [] => (s, some (refuse .empty 0))
  | l :: rest => done { s with period.hire := rest } (l.bytes ++ be 1 rest.length)

/-- R198: coding of the close step. -/
def closeStepValue : Option CloseContext → Nat
  | none => 0
  | some c => if c.sweeping then 2 else 1

/-- R198: READ PERIOD. -/
def ownReadPeriod (_fields : List Nat) (s : State) : Answered :=
  let p := s.period
  let counted := p.close.elim 0 fun c => c.counted.length
  done s (be 1 p.number ++ p.opened.bytes ++ be 1 p.hire.length ++ be 1 (closeStepValue p.close) ++ be 1 counted ++
    be 1 s.leasedSets.length ++ be 1 (Config.hireCap - p.hire.length - counted))

end Sys2Proof.Machine
end

