-- ==== Sys2Proof/Machine/Stations.lean ====
section
/-! DEFINITION. The Line master where it meets the class owners (04): stations enrolled and removed, the ends of
transactions, stations lost and back. -/

namespace Sys2Proof.Machine

/-! ## Enrolment -/

/-- R53, checks 1 to 6. -/
def enrolChecks (l : Line) (address cls object stage : Nat) : List (Bool × Reply) :=
  let c := classOf cls
  [(address == 0 || decide (62 < address), refuse .range 1),
    (decide (3 < cls), refuse .range 2),
    (c.elim false fun c => decide (c.lastObject < object), refuse .range 3),
    (if c == some .meter then decide (7 < stage) else stage != 0, refuse .range 4),
    ((l.entryAt address).isSome, refuse .conflict 1),
    (c.elim false fun c => l.enrolled c object, refuse .conflict 3)]

/-- R53: the lowest free entry. -/
def Line.freeEntry (l : Line) : Option Nat := l.stations.find fun e => e.isNone

/-- R53, R69, R145: the class owner is told that an object is present. -/
def State.objectPresent (s : State) (c : StationClass) (object stage : Nat) : State :=
  match c with
  | .set => { s with sets := s.sets.set object (some .fresh) }
  | .bowser => s
  | .board => s
  | .meter => s.unreadStation object (some stage)

/-- R53: an entry becomes used. -/
def State.enrol (s : State) (entry address : Nat) (c : StationClass) (object stage : Nat) : State :=
  let st : Station := ⟨address, c, object, stage, .unknown, 0, none, none⟩
  State.objectPresent { s with line.stations := s.line.stations.set entry (some st) } c object stage

/-- R53: ENROL STATION. -/
def ownEnrolStation (fields : List Nat) (s : State) : Answered :=
  let cls := arg fields 2
  let stage := arg fields 4
  unlessRefused s
    (enrolChecks s.line (arg fields 1) cls (arg fields 3) stage ++
      [(classOf cls == some .meter && (s.stage stage).elim false Stage.isChanging, refuse .state 4),
        (s.line.freeEntry.isNone, refuse .full 0)])
    (match s.line.freeEntry, classOf cls with
      | some e, some c => done (s.enrol e (arg fields 1) c (arg fields 3) stage) (be 1 e)
      | _, _ => (s, some (refuse .full 0)))

/-! ## Removal -/

/-- R54: whether a station's object is in use. -/
def State.objectInUse (s : State) (st : Station) : Bool :=
  match st.cls with
  | .set => (s.lease st.object).isSome || s.anyStage fun k => k.names st.object
  | .bowser => !(s.channel st.object).elim true Channel.isIdle
  | .board => (s.stage st.object).elim false Stage.isChanging
  | .meter => false

/-- R69: a set record ends: its waiting commands are given up. -/
def State.setRemoved (s : State) (i : Nat) : State :=
  { s with
    sets := s.sets.set i none
    line.waiting := s.line.waiting.filter fun c => !c.isFor .set i }

/-- R54, R69, R118, R122, R145: the class owner is told that an object is no longer present. -/
def State.objectGone (s : State) (c : StationClass) (object : Nat) : State :=
  match c with
  | .set => s.setRemoved object
  | .bowser => s.changeChannel object fun x => { x with report := none }
  | .board => s.boardRemoved object
  | .meter => s.unreadStation object none

/-- Whether a transaction is for an object. -/
def Transaction.isFor (t : Transaction) (c : StationClass) (object : Nat) : Bool := t.cls == c && t.object == object

/-- R54: a transaction for the station that is on the line goes on and its result is discarded; one chosen and not begun
is dropped (log entry 12). -/
def Line.voidTransaction (l : Line) (c : StationClass) (object : Nat) : Line :=
  match l.current with
  | some t =>
    if t.isFor c object then
      { l with current := if t.phase == .chosen then none else some { t with void := true } }
    else l
  | none => l

/-- R54: a station is removed. Its queued commands all leave before the waiting list is examined, once (DESIGN CHOICE, log
entry 44). -/
def State.removeStation (s : State) (entry : Nat) (st : Station) : State :=
  let s := s.endOnly (fun c => c.isFor st.cls st.object) .removed
  let s := { s with line := s.line.voidTransaction st.cls st.object }
  let s := { s with line.stations := s.line.stations.set entry none }
  let s := { s with line := s.line.markRemoved st.cls st.object }
  s.admitWaiting.objectGone st.cls st.object

/-- R54: REMOVE STATION. -/
def ownRemoveStation (fields : List Nat) (s : State) : Answered :=
  let address := arg fields 1
  if address = 0 ∨ 62 < address then (s, some (refuse .absent 1))
  else
    match s.line.entryAt address with
    | none => (s, some (refuse .absent 1))
    | some e =>
      match s.line.stations.used e with
      | none => (s, some (refuse .absent 1))
      | some st =>
        if s.objectInUse st then (s, some (refuse .state 1)) else done (s.removeStation e st) []

/-! ## Accepted replies -/

/-- R51: a report is handed to the class owner. A SET report reaches the Set monitor, then the Delivery unit with the
energy it showed (R101). -/
def State.handReport (s : State) (object : Nat) : Report → State
  | .set x =>
    let delta := energyDelta ((s.set object).bind fun r => r.report) x
    (s.applySetReport object x).deliverySetReport object x delta
  | .bowser x => s.applyBowserReport object x
  | .board x => s.applyBoardReport object x
  | .meter counters => s.applyMeterReport object counters

/-- R62, R64: STATION BACK and STATION LOST begin with the address, the class and the object index. -/
def Station.noticeBytes (st : Station) : List Byte := be 1 st.address ++ be 1 st.cls.value ++ be 1 st.object

/-- R62: an accepted reply of a station of the table. -/
def State.accept (s : State) (t : Transaction) (st : Station) (r : Report) : State :=
  let s :=
    { s with
      line := s.line.changeStation t.cls t.object fun st =>
        { st with run := 0, lastGood := some s.now, state := .answering } }
  let s := if st.state == .lost then s.post .stationBack st.noticeBytes else s
  let s := s.handReport t.object r
  match t.job with
  | .poll => s
  | .command n _ => s.endCommands (fun c => c.serial == n) .done

/-- R48: the transaction ends. -/
def State.endTransaction (s : State) : State := { s with line.current := none }

/-- R54, R62: the transaction ends with an accepted reply; a removed station's is discarded. -/
def State.transactionAccepted (s : State) (t : Transaction) (r : Report) : State :=
  let s := { s with line := s.line.heardGood }.endTransaction
  if t.void then s
  else
    match s.line.station t.cls t.object with
    | some st => s.accept t st r
    | none => s

/-- R49, R62: REPLY ACCEPTED, where the bytes are an accepted reply of the listening transaction. -/
def replyAccepted (s : State) (raw : List Byte) : State :=
  match s.line.listening, endingOf (.bytes raw) with
  | some t, some e =>
    match t.verdict s.now e with
    | .accepted r => s.transactionAccepted t r
    | .failed _ => s
  | _, _ => s

/-! ## Failures -/

/-- R64: the class owner is told that the station is lost. -/
def State.objectLost (s : State) (c : StationClass) (object : Nat) : State :=
  match c with
  | .set => (s.setLost object).gaugeLost object
  | .bowser => s.meterLost object
  | .board => s.boardLost object
  | .meter => s

/-- R64: the commands of a station that becomes LOST end; R109: those of a bowser that wait for room end too (of other
classes they wait on, log entry 15). -/
def State.endLostCommands (s : State) (c : StationClass) (object : Nat) : State :=
  let s := s.endCommands (fun x => x.isFor c object) .noAnswer
  if c == .bowser then s.endWaiting (fun x => x.isFor c object) .noAnswer else s

/-- R64: a station becomes LOST. -/
def State.loseStation (s : State) (st : Station) (f : LineFault) : State :=
  let s := { s with line := s.line.changeStation st.cls st.object fun st => { st with state := .lost } }
  let s := s.post .stationLost (st.noticeBytes ++ be 1 f.value)
  (s.objectLost st.cls st.object).endLostCommands st.cls st.object

/-- R63: an attempt of a command has failed. -/
def Line.failAttempt (l : Line) (serial : Nat) : Line :=
  { l with queue := l.queue.map fun c => if c.serial == serial then { c with attempts := c.attempts + 1 } else c }

/-- R63: a command's third attempt has failed. -/
def Line.spent (l : Line) (serial : Nat) : Bool :=
  (l.queued serial).elim false fun c => decide (Config.attemptCap ≤ c.attempts)

/-- R63: the attempts of a transaction's command after a failure that loses no station. -/
def State.failCommand (s : State) : Job → State
  | .poll => s
  | .command n _ => if s.line.spent n then s.endCommands (fun c => c.serial == n) .noAnswer else s

/-- R63: the attempts made rise by 1. -/
def Line.countAttempt (l : Line) : Job → Line
  | .poll => l
  | .command n _ => l.failAttempt n

/-- R63: a station of the table takes a failure. -/
def State.failStation (s : State) (t : Transaction) (st : Station) (f : LineFault) : State :=
  if st.state == .lost then
    { s with line := s.line.changeStation t.cls t.object fun st => { st with lastFault := some f } }
  else
    let s :=
      { s with
        line := (s.line.changeStation t.cls t.object fun st =>
          { st with lastFault := some f, run := min (st.run + 1) Config.lostRun }).countAttempt t.job }
    if st.run + 1 = Config.lostRun then s.loseStation st f else s.failCommand t.job

/-- R54, R63: the transaction ends with a fault kind; a removed station's is discarded. -/
def State.transactionFailed (s : State) (t : Transaction) (f : LineFault) : State :=
  let s := s.endTransaction
  if t.void then s
  else
    match s.line.station t.cls t.object with
    | some st => s.failStation t st f
    | none => s

/-- R65: what a frame end does to the jam timer: a good frame sets it to 0. -/
def Line.heardEnd (l : Line) (busyMs : Nat) : LineEnd → Line
  | .good _ _ _ _ => l.heardGood
  | .bad => l.heard busyMs true
  | .aborted => l.heard busyMs true
  | .overlong => l.heard busyMs true

/-- R50, R63: TRANSACTION FAULT: BAD CHECK, WRONG SOURCE, ABORTED or NAK; TOO LONG has its own command. -/
def transactionFault (s : State) (busyMs : Nat) (h : LineBytes) : State :=
  match s.line.listening, endingOf h with
  | some t, some e =>
    match t.verdict s.now e with
    | .accepted _ => s
    | .failed .tooLong => s
    | .failed f => State.transactionFailed { s with line := s.line.heardEnd busyMs e } t f
  | _, _ => s

/-- R50, R63: SILENT and TOO LONG end the listening transaction. -/
def listeningEnds (s : State) (a : LineActivity) (f : LineFault) : State :=
  match s.line.listening with
  | some t => State.transactionFailed { s with line := s.line.heard a.busyMs a.busyNow } t f
  | none => s

end Sys2Proof.Machine
end

