-- ==== Sys2Proof/WellFormed.lean ====
section
/-! DEFINITION. Which commands are well formed: numbers within 00, section 4.3, and byte runs of the shape their event
has. `exec` is total on the others too: an event that cannot happen changes nothing (log entry 2). -/

namespace Sys2Proof

/-- Index ranges of 00, section 4.3. -/
def setIndexOk (i : Nat) : Bool := decide (i < 12)
def channelOk (c : Nat) : Bool := decide (c < 3)
def stageOk (k : Nat) : Bool := decide (k < 8)

/-- One whole console frame (01, section 1.2): start byte, a length of 2 to 122, length + 2 further bytes. -/
def consoleFrameShape : List Byte → Bool
  | start :: len :: rest =>
    start == 0x5A && decide (2 ≤ len.toNat) && decide (len.toNat ≤ 122) && rest.length == len.toNat + 2
  | _ => false

/-- A console frame begun and not complete: the start byte alone, or fewer bytes than a valid length fixes (R2). -/
def consoleFrameBegun : List Byte → Bool
  | [start] => start == 0x5A
  | start :: len :: rest =>
    start == 0x5A && decide (2 ≤ len.toNat) && decide (len.toNat ≤ 122) && decide (rest.length < len.toNat + 2)
  | [] => false

/-- A console frame that ends at a bad length byte (R2): 0, 1 or 123 to 255. -/
def consoleBadLength : List Byte → Bool
  | [start, len] => start == 0x5A && (decide (len.toNat < 2) || decide (122 < len.toNat))
  | _ => false

/-- R2: what hunting drops before the start byte. -/
def afterNoise (bs : List Byte) : List Byte := bs.dropWhile fun b => b != 0x5A

/-- A yard line frame heard by the receiver (R46, R47): what hunting drops and idle-fill marks, then at most 53 escaped
body bytes and the closing mark. -/
def lineFrameShape (raw : List Byte) : Bool :=
  let frame := (raw.dropWhile fun b => b != 0xB6).dropWhile fun b => b == 0xB6
  frame.getLast? == some 0xB6 && decide (frame.length ≤ 107)

/-- A write cut short lies inside its memory (R176); in plan memory, inside the longest image whose length a header can
say (12, section 12.1). -/
def TornWrite.inside (t : TornWrite) : Bool :=
  decide (t.address + t.bytes.length ≤ if t.toTally then 2 * Config.bankBytes else 5 + 65535)

/-- The check on commands. -/
def Instr.wellFormed : Instr → Bool
  | .hardReset none => true
  | .hardReset (some t) => t.inside
  | .crankTimerExpiry i => setIndexOk i
  | .crankRestExpiry i => setIndexOk i
  | .warmUpExpiry i => setIndexOk i
  | .coolDownExpiry i => setIndexOk i
  | .settleExpiry c => channelOk c
  | .prepareExpiry k => stageOk k
  | .confirmExpiry k => stageOk k
  | .deadTimeExpiry k => stageOk k
  | .frameComplete _ bs => consoleFrameShape (afterNoise bs)
  | .frameGap _ bs => consoleFrameBegun (afterNoise bs)
  | .frameLengthBad _ bs => consoleBadLength (afterNoise bs)
  | .replyAccepted raw => lineFrameShape raw
  | .frameOutsideTransaction raw => lineFrameShape raw
  | .planLoaded => true
  | .softReset => true
  | .timeBaseStep => true
  | .clockIncrement => true
  | .sweepDue => true
  | .wholeSecond => true
  | .frameTransmitted _ => true
  | .unknownRequest _ => true
  | .identify _ _ => true
  | .resetPart _ => true
  | .softResetFlushStep => true
  | .writePlan _ => true
  | .setClock _ => true
  | .startClock _ => true
  | .stopClock _ => true
  | .readClock _ => true
  | .writeTariff _ => true
  | .readTariff _ => true
  | .setSweep _ => true
  | .writeWindow _ => true
  | .windowWriteBackStep => true
  | .readWindow _ => true
  | .enrolStation _ => true
  | .removeStation _ => true
  | .readStation _ => true
  | .leaseSet _ => true
  | .releaseSet _ => true
  | .startSet _ => true
  | .stopSet _ => true
  | .clearFault _ => true
  | .ackAlarms _ => true
  | .setMarks _ => true
  | .readSet _ => true
  | .openDelivery _ => true
  | .holdDelivery _ => true
  | .resumeDelivery _ => true
  | .finishDelivery _ => true
  | .cancelDelivery _ => true
  | .readChannel _ => true
  | .takeDeliveryRecord _ => true
  | .assignInput _ => true
  | .setStage _ => true
  | .changeOver _ => true
  | .abortChangeover _ => true
  | .restoreStage _ => true
  | .readStage _ => true
  | .installMap _ => true
  | .clearMapAll _ => true
  | .clearMapUnpinned _ => true
  | .clearMapCircuit _ => true
  | .readMiss _ => true
  | .readMap _ => true
  | .readCircuit _ => true
  | .statement _ => true
  | .performStatement => true
  | .rewriteAccount _ => true
  | .performRewrite => true
  | .flushTotals _ => true
  | .flushStep => true
  | .initTally _ => true
  | .initTallyStep => true
  | .readTallyFault _ => true
  | .closePeriod _ => true
  | .takeHireRecord _ => true
  | .readPeriod _ => true
  | .accountUpdate => true
  | .lineQuiet => true
  | .transactionFault _ _ => true
  | .silent _ => true
  | .tooLong _ => true
  | .lineJammed => true
  | .lineClear => true
  | .framingError _ _ => true
  | .closingMarkSent => true
  | .badFrameOutsideTransaction _ _ => true

end Sys2Proof
end

