-- ==== Sys2Proof/Machine/StartUp.lean ====
section
/-! DEFINITION. The Plan loader (12): the plan image and its loading, hard and soft reset, IDENTIFY, WRITE PLAN. -/

namespace Sys2Proof.Machine

/-! ## The plan image -/

/-- R18: coding of the decisions. -/
def Decision.value : Decision → Nat
  | .taken => 0
  | .left => 1
  | .bad => 2
  | .absent => 3

/-- 12, section 12.6: bytes of plan memory from byte `a`; a memory that is not fitted returns zeros (R199). -/
def State.planBytes (s : State) (a n : Nat) : List Byte :=
  if s.planFitted then Memory.readBytes s.planMem a n else List.replicate n 0

/-- R203: bytes written to plan memory from byte 0; to one that is not fitted they are lost. -/
def State.writePlanBytes (s : State) (bs : List Byte) : State :=
  if s.planFitted then { s with planMem := Memory.writeBytes s.planMem 0 bs } else s

/-- 12, section 12.1: bytes of a header. -/
def headerBytes : Nat := 5

/-- 12, section 12.1: the header of an image with `n` section bytes. -/
def planHeader (n : Nat) : List Byte := be 2 0x5648 ++ be 1 1 ++ be 2 n

/-- R199: the image length of a valid header. -/
def imageLength (header : List Byte) : Option Nat :=
  match fieldValues [2, 1, 2] header with
  | [identifier, format, length] =>
    if identifier = 0x5648 ∧ format = 1 ∧ length ≤ 1000 then some length else none
  | _ => none

/-- 12, section 12.1: bytes of framing of a section. -/
def framingBytes : Nat := 6

/-- R200: the sections that section bytes hold, each with its framing; the walk stops at one that would run past the end,
which decides nothing (DESIGN CHOICE, log entry 43: a decision its kind already has stands). `n` bounds how many there are. -/
def sectionsOf : Nat → List Byte → List (List Byte)
  | 0, _ => []
  | n + 1, bs =>
    let size := framingBytes + fromBe ((bs.drop 2).take 2)
    if bs.length < framingBytes ∨ bs.length < size then []
    else bs.take size :: sectionsOf n (bs.drop size)

/-- R199, R200: the sections of the image in plan memory, none where its header is not valid. -/
def State.planSections (s : State) : List (List Byte) :=
  match imageLength (s.planBytes 0 headerBytes) with
  | some n => sectionsOf n (s.planBytes headerBytes n)
  | none => []

/-- Section field Kind. -/
def sectionKind (x : List Byte) : Nat := (x.headD 0).toNat

/-- Section field Accept code: bits 1 and 0 (log entry 20). -/
def sectionAccept (x : List Byte) : Nat := (x.getD 1 0).toNat % 4

/-- Section field Data. -/
def sectionData (x : List Byte) : List Byte := (x.drop 4).take (x.length - framingBytes)

/-- Section field Check: whether it holds. -/
def sectionChecked (x : List Byte) : Bool := checkBytes (x.take (x.length - 2)) == x.drop (x.length - 2)

/-- R201: whether a data length is one that the kind allows. -/
def lengthAllowed (kind n : Nat) : Bool :=
  match kind with
  | 1 => n == 2
  | 2 => decide (n ≤ 161) && n % 4 == 1
  | 3 => n == 32
  | 4 => n == 96
  | 5 => n == 1
  | 6 => n == 6
  | 7 => n == 54
  | _ => false

/-- R200: the decision on a section of a kind not yet decided. -/
def decisionOf (x : List Byte) : Decision :=
  if sectionAccept x ≠ 1 then .left
  else if !sectionChecked x || !lengthAllowed (sectionKind x) (sectionData x).length then .bad
  else .taken

/-- R200: a section recorded in the load report; kinds outside 1 to 7 and kinds decided before are skipped.
Nothing is taken back by a section at which the reading stops (log entry 43). -/
def recordSection (r : Table 7 Decision) (x : List Byte) : Table 7 Decision :=
  if sectionKind x = 0 then r
  else r.modify (sectionKind x - 1) fun d => if d == .absent then decisionOf x else d

/-- R200: the load report of sections. -/
def reportFor (xs : List (List Byte)) : Table 7 Decision := xs.foldl recordSection (Table.replicate 7 .absent)

/-- R200: the data of the taken section of a kind: the first section of the kind decides it. -/
def takenData (xs : List (List Byte)) (kind : Nat) : Option (List Byte) :=
  ((xs.find? fun x => sectionKind x == kind).filter fun x => decisionOf x == .taken).map sectionData

/-- R18, R201: the site number. -/
def siteFor (xs : List (List Byte)) : Nat := (takenData xs 1).elim 0 fromBe

/-! ## Applying the sections -/

/-- The bytes of a section's data as numbers. -/
def numbers (bs : List Byte) : List Nat := bs.map fun b => b.toNat

/-- Act on numbers 0 to n - 1 in ascending order. -/
def State.forEach (n : Nat) (f : State → Nat → State) (s : State) : State := (List.range n).foldl f s

/-- R201: station entry `k` of the STATIONS data, judged by checks 1 to 6 of ENROL STATION. -/
def State.placeStation (v : List Nat) (s : State) (k : Nat) : State :=
  let address := v.getD (4 * k + 1) 0
  let cls := v.getD (4 * k + 2) 0
  let object := v.getD (4 * k + 3) 0
  let stage := v.getD (4 * k + 4) 0
  if (enrolChecks s.line address cls object stage).any fun c => c.1 then s
  else
    match s.line.freeEntry, classOf cls with
    | some e, some c => s.enrol e address c object stage
    | _, _ => s

/-- R201: STATIONS; a count that the length does not bear out is cut to the entries present (log entry 19). -/
def State.applyStations (s : State) (bs : List Byte) : State :=
  let v := numbers bs
  State.forEach (min (v.headD 0) ((v.length - 1) / 4)) (State.placeStation v) s

/-- R141: whether a set index of the STAGES data can be an input: 255 for none, or a set with a record. -/
def State.inputAllowed (s : State) (i : Nat) : Bool := i == 255 || (s.set i).isSome

/-- The set that an input byte names. -/
def inputSet (i : Nat) : Option Nat := if i == 255 then none else some i

/-- R141: stage `k` of the STAGES data. -/
def State.placeStage (v : List Nat) (s : State) (k : Nat) : State :=
  let a := v.getD (4 * k) 0
  let b := v.getD (4 * k + 1) 0
  let auto := v.getD (4 * k + 2) 0
  let dead := v.getD (4 * k + 3) 0
  if s.inputAllowed a && s.inputAllowed b && (a != b || a == 255) && decide (1 ≤ dead) && decide (dead ≤ 10) then
    s.changeStage k fun x => { x with inputA := inputSet a, inputB := inputSet b, auto := bitOf auto 0, deadTime := dead }
  else s

/-- R96: the marks of index `i` in the MARKS data. -/
def State.placeMarks (v : List Nat) (s : State) (i : Nat) : State :=
  let m : Marks := ⟨v.getD (4 * i) 0, v.getD (4 * i + 1) 0, v.getD (4 * i + 2) 0, v.getD (4 * i + 3) 0⟩
  if (m.firstBad none).isNone then { s with marks := s.marks.set i m } else s

/-- R19, R201: SWEEP, each setting judged on its own (R29). -/
def State.applySweep (s : State) (bs : List Byte) : State :=
  match fieldValues [2, 4] bs with
  | [interval, limit] =>
    let c : Clock :=
      { s.clock with
        interval := if 60 ≤ interval ∧ interval ≤ 900 then interval else s.clock.interval
        limit := if 1000 ≤ limit ∧ limit ≤ 4000000 then limit else s.clock.limit }
    { s with clock := c }
  | _ => s

/-- R44: window `k` of the WINDOWS data. -/
def State.placeWindow (bs : List Byte) (s : State) (k : Nat) : State :=
  match fieldValues [1, 2, 2, 1, 1, 1, 1] (bs.drop (9 * k)) with
  | [enabled, base, mask, roles, deny, mode, tag] =>
    let f : WindowFields := ⟨enabled, base, mask, roles, deny, mode, tag⟩
    if (f.firstBad k).isNone then { s with windows := s.windows.write k f } else s
  | _ => s

/-- R176: TALLY. -/
def State.applyTally (s : State) (bs : List Byte) : State :=
  let bits := fromBe bs
  { s with tally := { s.tally with bank0 := bitOf bits 0, bank1 := bitOf bits 1 } }

/-- The defaults of R201 stand for a section that is not taken. -/
def State.ifTaken (s : State) (data : Option (List Byte)) (f : State → List Byte → State) : State :=
  data.elim s fun bs => f s bs

/-- R199: the taken sections applied in the order SITE to WINDOWS. -/
def State.applySections (s : State) (xs : List (List Byte)) : State :=
  let s := { s with loader := { s.loader with site := siteFor xs } }
  let s := s.ifTaken (takenData xs 2) State.applyStations
  let s := s.ifTaken (takenData xs 3) fun s bs => State.forEach 8 (State.placeStage (numbers bs)) s
  let s := s.ifTaken (takenData xs 4) fun s bs =>
    State.forEach 12 (State.placeMarks (fieldValues (List.replicate 48 2) bs)) s
  let s := s.ifTaken (takenData xs 5) State.applyTally
  let s := s.ifTaken (takenData xs 6) State.applySweep
  s.ifTaken (takenData xs 7) fun s bs => State.forEach 6 (State.placeWindow bs) s

/-- The load report as bytes (R18). -/
def Loader.reportBytes (l : Loader) : List Byte := l.report.cells.flatMap fun d => be 1 d.value

/-- R199, R202: STARTED. -/
def State.postStarted (s : State) : State := s.post .started (be 1 (flag s.loader.lastSoft) ++ s.loader.reportBytes)

/-- R199: the image has been read: the sections are applied, the part becomes READY and STARTED is posted. -/
def planLoaded (s : State) : State :=
  if s.loader.ready then s
  else
    let xs := s.planSections
    let s := s.applySections xs
    State.postStarted
      { s with loader := { s.loader with ready := true, report := reportFor xs, sectionsRead := xs.length } }

/-! ## Resets -/

/-- R199: the write that a hard reset cut short: the bytes that got in (log entry 22). -/
def State.tear (s : State) : Option TornWrite → State
  | none => s
  | some t =>
    if !t.inside then s
    else if t.toTally then { s with tallyMem := Memory.writeBytes s.tallyMem t.address t.bytes }
    else { s with planMem := Memory.writeBytes s.planMem t.address t.bytes }

/-- R199: a hard reset: every block takes its hard-reset values; the memories keep their contents and the commands that
wait are not the part's. -/
def hardReset (s : State) (torn : Option TornWrite) : State :=
  let m := s.tear torn
  { State.reset with
    planMem := m.planMem
    tallyMem := m.tallyMem
    planFitted := m.planFitted
    bank0Fitted := m.bank0Fitted
    bank1Fitted := m.bank1Fitted
    pending := m.pending }

/-- R17: a soft reset at a port. -/
def PortState.softReset (q : PortState) : PortState :=
  { q with
    buffer := []
    notices := []
    inputDiscarded := q.inputDiscarded || !q.buffer.isEmpty
    noticesDropped := q.noticesDropped || !q.notices.isEmpty }

/-- R68. A reply may be arriving at a transaction that listens, so the first poll then waits until 2 ms of quiet are told
(R45, log entry 4). A frame being sent is cut (log entry 37). -/
def Line.softReset (l : Line) : Line :=
  { l with
    stations := l.stations.map fun e => e.map fun st => { st with state := .unknown, run := 0 }
    queue := []
    waiting := []
    sincePoll := 0
    pointer := 0
    round := 0
    jammed := false
    jamTimer := 0
    quietTimer := 0
    busy := l.busy || l.listening.isSome
    current := none }

/-- R97. -/
def SetRecord.softReset (r : SetRecord) : SetRecord := { SetRecord.fresh with lease := r.lease }

/-- R142. -/
def Stage.softReset (k : Stage) : Stage :=
  { Stage.reset with inputA := k.inputA, inputB := k.inputB, auto := k.auto, deadTime := k.deadTime }

/-- R159, R175: circuits, map and pointer are kept; the rest is as after a hard reset. -/
def BillingEngine.softReset (b : BillingEngine) : BillingEngine :=
  { BillingEngine.reset with circuits := b.circuits, map := b.map, pointer := b.pointer }

/-- R175, steps 2 and 3, and R189: dirty lines are written back, every line becomes invalid, the latch is emptied. -/
def State.tallySoftReset (s : State) : State :=
  let s := State.forEach 64 (fun s n => (s.writeBack n).1) s
  { s with tally := { s.tally with lines := Table.replicate 64 none, work := [], fault := none } }

/-- R202: every block takes its soft-reset values. -/
def State.blocksSoftReset (s : State) : State :=
  let s := s.tallySoftReset
  { s with
    yard := s.yard.softReset
    office := s.office.softReset
    line := s.line.softReset
    sets := s.sets.map fun r => r.map SetRecord.softReset
    deliveries := { s.deliveries with channels := s.deliveries.channels.map fun c => { c with report := none } }
    stages := s.stages.map Stage.softReset
    billing := s.billing.softReset
    loader := { s.loader with ready := true, lastSoft := true, section_ := none, resetDue := false } }

/-- R17, R202: whether the soft reset may take effect: its DONE and the Yard request in progress have been answered. -/
def State.softResetReady (s : State) : Bool :=
  s.loader.resetDue && s.office.inProgress.isNone && s.yard.inProgress.isNone

/-- R202: the soft reset takes effect. -/
def softReset (s : State) : State := if s.softResetReady then s.blocksSoftReset.postStarted else s

/-! ## IDENTIFY -/

/-- R200: what the loader has decided after the first `n` sections, while LOADING. -/
def State.loadedUpTo (s : State) (n : Nat) : State :=
  let xs := s.planSections.take n
  { s with loader := { s.loader with report := reportFor xs, site := siteFor xs, sectionsRead := n } }

/-- R18: the DONE data of IDENTIFY. -/
def Loader.identity (l : Loader) : List Byte :=
  be 2 Config.vendorCode ++ be 2 Config.partCode ++ be 1 Config.siliconRevision ++ be 2 l.site ++
    be 1 (flag l.ready) ++ be 1 (flag l.lastSoft) ++ l.reportBytes

/-- R18: IDENTIFY. While LOADING it shows the decisions made so far (log entry 21). -/
def ownIdentify (progress : Nat) (_fields : List Nat) (s : State) : Answered :=
  let s := if s.loader.ready then s else s.loadedUpTo (max progress s.loader.sectionsRead)
  done s s.loader.identity

/-! ## WRITE PLAN -/

/-- 12, section 12.1: a section as it is stored, its check computed afresh. -/
def PendingSection.stored (p : PendingSection) : List Byte :=
  let x := be 1 p.kind ++ be 1 p.accept ++ be 2 p.total ++ p.data
  x ++ checkBytes x

/-- R203: of the sections met, the first of each kind 1 to 7, given those kept so far. -/
def keepFirst (kept : List (List Byte)) : List (List Byte) → List (List Byte)
  | [] => kept
  | x :: rest =>
    let k := sectionKind x
    if 1 ≤ k ∧ k ≤ 7 ∧ !kept.any (fun y => sectionKind y == k) then keepFirst (kept ++ [x]) rest
    else keepFirst kept rest

/-- R203: the new section in place of the one of its kind, or after the last. -/
def putSection (x : List Byte) (kept : List (List Byte)) : List (List Byte) :=
  if kept.any fun y => sectionKind y == sectionKind x then
    kept.map fun y => if sectionKind y == sectionKind x then x else y
  else kept ++ [x]

/-- R203: the section bytes of the new image. -/
def State.newImage (s : State) (p : PendingSection) : List Byte :=
  (putSection p.stored (keepFirst [] s.planSections)).flatten

/-- R203: the pending section is complete: the new image is written and its header read back. -/
def writeImage (s : State) (p : PendingSection) : Answered :=
  let body := s.newImage p
  let header := planHeader body.length
  let s := s.writePlanBytes (header ++ body)
  let verified := s.planBytes 0 headerBytes == header
  done { s with loader := { s.loader with section_ := none } } (be 1 1 ++ be 2 body.length ++ be 1 (flag verified))

/-- R203: a piece has been added. -/
def addPiece (s : State) (p : PendingSection) : Answered :=
  if p.data.length < p.total then
    done { s with loader := { s.loader with section_ := some p } } (be 1 0 ++ be 2 p.data.length)
  else writeImage s p

/-- R203: whether a pending section is continued by a piece of this kind, accept code and total length at an offset. -/
def PendingSection.continuedBy (p : PendingSection) (kind accept total offset : Nat) : Bool :=
  p.kind == kind && p.accept == accept && p.total == total && p.data.length == offset

/-- R203: WRITE PLAN. -/
def ownWritePlan (fields : List Nat) (s : State) : Answered :=
  let kind := arg fields 1
  let accept := arg fields 2
  let total := arg fields 3
  let offset := arg fields 4
  let piece := (fields.drop 5).map fun n => BitVec.ofNat 8 n
  let pending := s.loader.section_.filter fun p => p.continuedBy kind accept total offset
  unlessRefused s
    [(kind == 0 || decide (7 < kind), refuse .range 1), (decide (3 < accept), refuse .range 2),
      (!lengthAllowed kind total, refuse .range 3), (decide (total < offset + arg fields 5), refuse .range 5),
      (offset != 0 && pending.isNone, refuse .state 4)]
    (addPiece s ⟨kind, accept, total, (if offset == 0 then [] else pending.elim [] fun p => p.data) ++ piece⟩)

end Sys2Proof.Machine
end

