-- ==== Sys2Proof/Machine/Settle.lean ====
section
/-! DEFINITION. The end of a step: what the blocks have told each other is acted on, then the line master chooses. -/

namespace Sys2Proof.Machine

/-- R59: the requester of a command: the Set monitor, the Delivery unit or the Feed sequencer. -/
def State.commandEnded (s : State) (c : Command) (o : CommandOutcome) : State :=
  match c.order with
  | .startEngine => s.engineOutcome c o
  | .stopEngine => s.engineOutcome c o
  | .clearShutdown => s.engineOutcome c o
  | .pumpRun => s.pumpOutcome c o
  | .pumpHalt => s.pumpOutcome c o
  | .openInput _ => s.boardOutcome c o
  | .closeInput _ => s.boardOutcome c o
  | .readCounters => s.countersOutcome c o

/-- A block acts on what it has been told. -/
def State.heed (s : State) : Told → State
  | .setChanged i => s.setChanged i
  | .fuelLowRaised i except => s.fuelLowRaised i except
  | .fuelLowCleared i => s.fuelLowCleared i
  | .outcome c o => s.commandEnded c o
  | .judgeSupply k => s.judgeSupply k
  | .boundaryCheck k => s.boundaryCheck k
  | .boundaryEnded r => s.boundaryEnded r
  | .bill src => s.continueSource src

/-- What has been told is acted on in the order told (log entry 9), `n` messages at most (log entry 10). -/
def State.settle : Nat → State → State
  | 0, s => s
  | n + 1, s =>
    match s.told with
    | [] => s
    | m :: rest => State.settle n (State.heed { s with told := rest } m)

/-- The end of a step (log entry 11). -/
def State.finish (s : State) : State := (State.settle Config.tellFuel s).arbitrate

/-- What every meaning answers with. -/
abbrev Result := Host.Outcome State Fault Refusal

/-- The next state of a step that ends here: the transmitters begin what they may. -/
def ends (s : State) : Result := .next s.transmit

/-- An owner's answer at the end of its step; a refusal has changed nothing (R9). -/
def finished (a : Answered) : Answered :=
  match a.2 with
  | some (.refused _ _ _) => a
  | some (.done _) => (a.1.finish, a.2)
  | some .accepted => (a.1.finish, a.2)
  | none => (a.1.finish, a.2)

/-- A request whose owner may tell other blocks something. -/
def finishing (owner : List Nat → State → Answered) (fields : List Nat) (s : State) : Answered := finished (owner fields s)

end Sys2Proof.Machine
end

