-- ==== Sys2Proof/Machine/TimeEvents.lean ====
section
/-! DEFINITION. Meanings of the events of reset and of time. -/

namespace Sys2Proof.Machine

/-! ## Resets -/

/-- HARD_RESET, R199. -/
def execHardReset (torn : Option TornWrite) (s : State) : Result := .next (hardReset s torn)

/-- PLAN_LOADED, R199. -/
def execPlanLoaded (s : State) : Result := ends (planLoaded s).finish

/-- SOFT_RESET, R202. -/
def execSoftReset (s : State) : Result := ends (softReset s).finish

/-- SOFT_RESET_FLUSH_STEP, R175. -/
def execSoftResetFlushStep (s : State) : Result := ends (softResetFlushStep s)

/-! ## The time base -/

/-- R30: a step of a set's timer. -/
def SetRecord.tick (r : SetRecord) : SetRecord := { r with timer := r.timer.map fun t => { t with left := t.left - 1 } }

/-- R30, R110: a step of a settle timer. -/
def ChannelState.tick (q : ChannelState) : ChannelState :=
  match q with
  | .settling d left => .settling d (left - 1)
  | .idle => q
  | .armed _ => q
  | .flowing _ => q
  | .halted _ _ => q
  | .heldLog _ _ => q

/-- R30: a step of a changeover's timer. -/
def StageState.tick (q : StageState) : StageState :=
  match q with
  | .changing c => .changing { c with timer := c.timer.map fun t => { t with left := t.left - 1 } }
  | .unknown => q
  | .dark => q
  | .fed _ => q
  | .conflict => q

/-- R23: a RUNNING clock's phase counts time-base steps. -/
def Clock.tick (c : Clock) : Clock := if c.state == .running then { c with phase := c.phase + 1 } else c

/-- R66: the tenths of a second for which the line has been JAMMED, saturating. -/
def Line.tick (l : Line) : Line := if l.jammed then { l with jammedTenths := min (l.jammedTenths + 1) 65535 } else l

/-- R30: one time-base step of 100 ms. -/
def State.tick (s : State) : State :=
  { s with
    clock := s.clock.tick
    tenths := s.tenths + 1
    line := s.line.tick
    sets := s.sets.map fun r => r.map SetRecord.tick
    deliveries := { s.deliveries with channels := s.deliveries.channels.map fun c => { c with state := c.state.tick } }
    stages := s.stages.map fun k => { k with state := k.state.tick } }

/-- TIME_BASE_STEP, R30. -/
def execTimeBaseStep (s : State) : Result := ends s.tick

/-- CLOCK_INCREMENT, R23. -/
def execClockIncrement (s : State) : Result := ends (clockIncrement s)

/-- SWEEP_DUE, R28. -/
def execSweepDue (s : State) : Result := ends (sweepDue s).finish

/-- WHOLE_SECOND, R88. -/
def execWholeSecond (s : State) : Result := ends (wholeSecond s)

/-! ## Timers -/

/-- CRANK_TIMER_EXPIRY, R77. -/
def execCrankTimerExpiry (set : Nat) (s : State) : Result := ends (crankTimerExpiry s set).finish

/-- CRANK_REST_EXPIRY, R77. -/
def execCrankRestExpiry (set : Nat) (s : State) : Result := ends (crankRestExpiry s set).finish

/-- WARM_UP_EXPIRY, R76. -/
def execWarmUpExpiry (set : Nat) (s : State) : Result := ends (warmUpExpiry s set).finish

/-- COOL_DOWN_EXPIRY, R80. -/
def execCoolDownExpiry (set : Nat) (s : State) : Result := ends (coolDownExpiry s set).finish

/-- SETTLE_EXPIRY, R110. -/
def execSettleExpiry (channel : Nat) (s : State) : Result := ends (settleExpiry s channel).finish

/-- PREPARE_EXPIRY, R130. -/
def execPrepareExpiry (stage : Nat) (s : State) : Result := ends (prepareExpiry s stage).finish

/-- CONFIRM_EXPIRY, R134. -/
def execConfirmExpiry (stage : Nat) (s : State) : Result := ends (confirmExpiry s stage).finish

/-- DEAD_TIME_EXPIRY, R133. -/
def execDeadTimeExpiry (stage : Nat) (s : State) : Result := ends (deadTimeExpiry s stage).finish

end Sys2Proof.Machine
end

