-- ==== Sys2Proof/Machine/LineEvents.lean ====
section
/-! DEFINITION. Meanings of the events of the console lines, of the yard line and of the Tally controller's work. -/

namespace Sys2Proof.Machine

/-! ## Console lines (01) -/

/-- R2: bytes received on a port. -/
def State.receive (s : State) (p : Port) (bytes : List Byte) : State := s.withPort p fun q => q.receive bytes

/-- R1, R2: a gap or a framing error drops a frame not yet complete. -/
def State.breakOff (s : State) (p : Port) (bytes : List Byte) : State :=
  s.withPort p fun q => { q.receive bytes with rx := .hunting }

/-- FRAME_COMPLETE, R2. -/
def execFrameComplete (port : Port) (bytes : List Byte) (s : State) : Result := ends (s.receive port bytes)

/-- FRAME_GAP, R2. -/
def execFrameGap (port : Port) (bytes : List Byte) (s : State) : Result := ends (s.breakOff port bytes)

/-- FRAMING_ERROR, R1. -/
def execFramingError (port : Port) (bytes : List Byte) (s : State) : Result := ends (s.breakOff port bytes)

/-- FRAME_LENGTH_BAD, R2. -/
def execFrameLengthBad (port : Port) (bytes : List Byte) (s : State) : Result := ends (s.receive port bytes)

/-- FRAME_TRANSMITTED, R12. -/
def execFrameTransmitted (port : Port) (s : State) : Result := ends (s.withPort port PortState.sent)

/-- R6, check 1: a frame whose kind is no request is refused UNKNOWN. -/
def State.refuseUnknown (s : State) (p : Port) : State :=
  match (s.port p).inProgress with
  | none => s
  | some r => if !r.judged && !isRequestKind r.kind then (s.judged p).answer p (refuse .unknown 0) else s

/-- UNKNOWN_REQUEST, R6. -/
def execUnknownRequest (port : Port) (s : State) : Result := ends (s.refuseUnknown port)

/-! ## The yard line (04) -/

/-- LINE_QUIET, R45. -/
def execLineQuiet (s : State) : Result := ends (lineQuiet s).finish

/-- CLOSING_MARK_SENT, R49. -/
def execClosingMarkSent (s : State) : Result := ends (closingMarkSent s)

/-- REPLY_ACCEPTED, R62. -/
def execReplyAccepted (raw : List Byte) (s : State) : Result := ends (replyAccepted s raw).finish

/-- TRANSACTION_FAULT, R63. -/
def execTransactionFault (busyMs : Nat) (heard : LineBytes) (s : State) : Result :=
  ends (transactionFault s busyMs heard).finish

/-- SILENT, R50. -/
def execSilent (activity : LineActivity) (s : State) : Result := ends (listeningEnds s activity .silent).finish

/-- TOO_LONG, R50. -/
def execTooLong (activity : LineActivity) (s : State) : Result := ends (listeningEnds s activity .tooLong).finish

/-- FRAME_OUTSIDE_TRANSACTION, R47. -/
def execFrameOutsideTransaction (raw : List Byte) (s : State) : Result := ends (frameOutside s raw)

/-- BAD_FRAME_OUTSIDE_TRANSACTION, R47. -/
def execBadFrameOutsideTransaction (busyMs : Nat) (heard : LineBytes) (s : State) : Result :=
  ends (badFrameOutside s busyMs heard)

/-- LINE_JAMMED, R65. -/
def execLineJammed (s : State) : Result := ends (lineJammed s)

/-- LINE_CLEAR, R66. -/
def execLineClear (s : State) : Result := ends (lineClear s).finish

/-! ## The work list (09, 10) -/

/-- ACCOUNT_UPDATE, R166. -/
def execAccountUpdate (s : State) : Result := ends (performAccountUpdate s).finish

/-- PERFORM_STATEMENT, R172. -/
def execPerformStatement (s : State) : Result := ends (performStatement s)

/-- PERFORM_REWRITE, R186. -/
def execPerformRewrite (s : State) : Result := ends (performRewrite s)

/-- FLUSH_STEP, R173. -/
def execFlushStep (s : State) : Result := ends (flushStep s)

/-- WINDOW_WRITE_BACK_STEP, R42. -/
def execWindowWriteBackStep (s : State) : Result := ends (windowWriteBackStep s)

/-- INIT_TALLY_STEP, R188. -/
def execInitTallyStep (s : State) : Result := ends (initTallyStep s)

end Sys2Proof.Machine
end

