-- ==== Sys2Proof/Machine/Requests.lean ====
section
/-! DEFINITION. Meanings of the requests of the port handlers, the Plan loader, the Clock unit, the Window check and the Line master. -/

namespace Sys2Proof.Machine

/-- IDENTIFY, R18. -/
def execIdentify (port : Port) (progress : Nat) (s : State) : Result :=
  ends (serve port .identify (ownIdentify progress) s)

/-- RESET_PART, R202. -/
def execResetPart (port : Port) (s : State) : Result := ends (serve port .resetPart ownResetPart s)

/-- WRITE_PLAN, R203. -/
def execWritePlan (port : Port) (s : State) : Result := ends (serve port .writePlan ownWritePlan s)

/-- SET_CLOCK, R20. -/
def execSetClock (port : Port) (s : State) : Result := ends (serve port .setClock ownSetClock s)

/-- START_CLOCK, R21. -/
def execStartClock (port : Port) (s : State) : Result := ends (serve port .startClock ownStartClock s)

/-- STOP_CLOCK, R22. -/
def execStopClock (port : Port) (s : State) : Result := ends (serve port .stopClock ownStopClock s)

/-- READ_CLOCK, R25. -/
def execReadClock (port : Port) (s : State) : Result := ends (serve port .readClock ownReadClock s)

/-- WRITE_TARIFF, R26. -/
def execWriteTariff (port : Port) (s : State) : Result := ends (serve port .writeTariff ownWriteTariff s)

/-- READ_TARIFF, R27. -/
def execReadTariff (port : Port) (s : State) : Result := ends (serve port .readTariff ownReadTariff s)

/-- SET_SWEEP, R29. -/
def execSetSweep (port : Port) (s : State) : Result := ends (serve port .setSweep ownSetSweep s)

/-- WRITE_WINDOW, R40, R41. -/
def execWriteWindow (port : Port) (s : State) : Result := ends (serve port .writeWindow ownWriteWindow s)

/-- READ_WINDOW, R43. -/
def execReadWindow (port : Port) (s : State) : Result := ends (serve port .readWindow ownReadWindow s)

/-- ENROL_STATION, R53. -/
def execEnrolStation (port : Port) (s : State) : Result := ends (serve port .enrolStation (finishing ownEnrolStation) s)

/-- REMOVE_STATION, R54. -/
def execRemoveStation (port : Port) (s : State) : Result := ends (serve port .removeStation (finishing ownRemoveStation) s)

/-- READ_STATION, R55. -/
def execReadStation (port : Port) (s : State) : Result := ends (serve port .readStation ownReadStation s)

end Sys2Proof.Machine
end

