-- ==== Sys2Proof/Machine/YardRequests.lean ====
section
/-! DEFINITION. Meanings of the requests of the Set monitor, the Delivery unit and the Feed sequencer. -/

namespace Sys2Proof.Machine

/-- LEASE_SET, R93. -/
def execLeaseSet (port : Port) (s : State) : Result := ends (serve port .leaseSet ownLeaseSet s)

/-- RELEASE_SET, R94. -/
def execReleaseSet (port : Port) (s : State) : Result := ends (serve port .releaseSet ownReleaseSet s)

/-- START_SET, R75. -/
def execStartSet (port : Port) (s : State) : Result := ends (serve port .startSet (finishing ownStartSet) s)

/-- STOP_SET, R79. -/
def execStopSet (port : Port) (s : State) : Result := ends (serve port .stopSet (finishing ownStopSet) s)

/-- CLEAR_FAULT, R82. -/
def execClearFault (port : Port) (s : State) : Result := ends (serve port .clearFault (finishing ownClearFault) s)

/-- ACK_ALARMS, R85. -/
def execAckAlarms (port : Port) (s : State) : Result := ends (serve port .ackAlarms ownAckAlarms s)

/-- SET_MARKS, R86. -/
def execSetMarks (port : Port) (s : State) : Result := ends (serve port .setMarks ownSetMarks s)

/-- READ_SET, R95. -/
def execReadSet (port : Port) (s : State) : Result := ends (serve port .readSet ownReadSet s)

/-- OPEN_DELIVERY, R99. -/
def execOpenDelivery (port : Port) (s : State) : Result := ends (serve port .openDelivery (finishing ownOpenDelivery) s)

/-- HOLD_DELIVERY, R104. -/
def execHoldDelivery (port : Port) (s : State) : Result := ends (serve port .holdDelivery (finishing ownHoldDelivery) s)

/-- RESUME_DELIVERY, R105. -/
def execResumeDelivery (port : Port) (s : State) : Result := ends (serve port .resumeDelivery (finishing ownResumeDelivery) s)

/-- FINISH_DELIVERY, R106. -/
def execFinishDelivery (port : Port) (s : State) : Result := ends (serve port .finishDelivery (finishing ownFinishDelivery) s)

/-- CANCEL_DELIVERY, R107. -/
def execCancelDelivery (port : Port) (s : State) : Result := ends (serve port .cancelDelivery (finishing ownCancelDelivery) s)

/-- READ_CHANNEL, R117. -/
def execReadChannel (port : Port) (s : State) : Result := ends (serve port .readChannel ownReadChannel s)

/-- TAKE_DELIVERY_RECORD, R115. -/
def execTakeDeliveryRecord (port : Port) (s : State) : Result := ends (serve port .takeDeliveryRecord ownTakeDeliveryRecord s)

/-- ASSIGN_INPUT, R123. -/
def execAssignInput (port : Port) (s : State) : Result := ends (serve port .assignInput ownAssignInput s)

/-- SET_STAGE, R124. -/
def execSetStage (port : Port) (s : State) : Result := ends (serve port .setStage ownSetStage s)

/-- CHANGE_OVER, R126. -/
def execChangeOver (port : Port) (s : State) : Result := ends (serve port .changeOver (finishing ownChangeOver) s)

/-- ABORT_CHANGEOVER, R136. -/
def execAbortChangeover (port : Port) (s : State) : Result := ends (serve port .abortChangeover (finishing ownAbortChangeover) s)

/-- RESTORE_STAGE, R127. -/
def execRestoreStage (port : Port) (s : State) : Result := ends (serve port .restoreStage (finishing ownRestoreStage) s)

/-- READ_STAGE, R140. -/
def execReadStage (port : Port) (s : State) : Result := ends (serve port .readStage ownReadStage s)

end Sys2Proof.Machine
end

