-- ==== Sys2Proof/Machine/TotalRequests.lean ====
section
/-! DEFINITION. Meanings of the requests of the Billing engine, the Tally controller and the Period unit. -/

namespace Sys2Proof.Machine

/-- INSTALL_MAP, R154. -/
def execInstallMap (port : Port) (s : State) : Result := ends (serve port .installMap ownInstallMap s)

/-- CLEAR_MAP_ALL, R155. -/
def execClearMapAll (port : Port) (s : State) : Result :=
  ends (serveWhere (takesClearMap 0) port .clearMap ownClearMapAll s)

/-- CLEAR_MAP_UNPINNED, R155. -/
def execClearMapUnpinned (port : Port) (s : State) : Result :=
  ends (serveWhere (takesClearMap 1) port .clearMap ownClearMapUnpinned s)

/-- CLEAR_MAP_CIRCUIT, R155. -/
def execClearMapCircuit (port : Port) (s : State) : Result :=
  ends (serveWhere (takesClearMap 2) port .clearMap ownClearMapCircuit s)

/-- READ_MISS, R153. -/
def execReadMiss (port : Port) (s : State) : Result := ends (serve port .readMiss ownReadMiss s)

/-- READ_MAP, R156. -/
def execReadMap (port : Port) (s : State) : Result := ends (serve port .readMap ownReadMap s)

/-- READ_CIRCUIT, R157. -/
def execReadCircuit (port : Port) (s : State) : Result := ends (serve port .readCircuit ownReadCircuit s)

/-- STATEMENT, R172. -/
def execStatement (port : Port) (s : State) : Result := ends (serve port .statement (ownStatement port) s)

/-- REWRITE_ACCOUNT, R185. -/
def execRewriteAccount (port : Port) (s : State) : Result := ends (serve port .rewriteAccount ownRewriteAccount s)

/-- FLUSH_TOTALS, R173. -/
def execFlushTotals (port : Port) (s : State) : Result := ends (serve port .flushTotals ownFlushTotals s)

/-- INIT_TALLY, R187. -/
def execInitTally (port : Port) (s : State) : Result := ends (serve port .initTally ownInitTally s)

/-- READ_TALLY_FAULT, R183. -/
def execReadTallyFault (port : Port) (s : State) : Result := ends (serve port .readTallyFault ownReadTallyFault s)

/-- CLOSE_PERIOD, R193. -/
def execClosePeriod (port : Port) (s : State) : Result := ends (serve port .closePeriod (finishing ownClosePeriod) s)

/-- TAKE_HIRE_RECORD, R197. -/
def execTakeHireRecord (port : Port) (s : State) : Result := ends (serve port .takeHireRecord ownTakeHireRecord s)

/-- READ_PERIOD, R198. -/
def execReadPeriod (port : Port) (s : State) : Result := ends (serve port .readPeriod ownReadPeriod s)

end Sys2Proof.Machine
end

