-- ==== Sys2Proof/Machine/Dispatch.lean ====
section
/-! DEFINITION. One arm per command. -/

namespace Sys2Proof.Machine

/-- The effect of a command on everything but the queue. -/
def exec (i : Instr) (s : State) : Host.Outcome State Fault Refusal :=
  match i with
  | .hardReset torn => Sys2Proof.Machine.execHardReset torn s
  | .planLoaded => Sys2Proof.Machine.execPlanLoaded s
  | .softReset => Sys2Proof.Machine.execSoftReset s
  | .timeBaseStep => Sys2Proof.Machine.execTimeBaseStep s
  | .clockIncrement => Sys2Proof.Machine.execClockIncrement s
  | .sweepDue => Sys2Proof.Machine.execSweepDue s
  | .wholeSecond => Sys2Proof.Machine.execWholeSecond s
  | .crankTimerExpiry set => Sys2Proof.Machine.execCrankTimerExpiry set s
  | .crankRestExpiry set => Sys2Proof.Machine.execCrankRestExpiry set s
  | .warmUpExpiry set => Sys2Proof.Machine.execWarmUpExpiry set s
  | .coolDownExpiry set => Sys2Proof.Machine.execCoolDownExpiry set s
  | .settleExpiry channel => Sys2Proof.Machine.execSettleExpiry channel s
  | .prepareExpiry stage => Sys2Proof.Machine.execPrepareExpiry stage s
  | .confirmExpiry stage => Sys2Proof.Machine.execConfirmExpiry stage s
  | .deadTimeExpiry stage => Sys2Proof.Machine.execDeadTimeExpiry stage s
  | .frameComplete port bytes => Sys2Proof.Machine.execFrameComplete port bytes s
  | .frameGap port bytes => Sys2Proof.Machine.execFrameGap port bytes s
  | .frameTransmitted port => Sys2Proof.Machine.execFrameTransmitted port s
  | .unknownRequest port => Sys2Proof.Machine.execUnknownRequest port s
  | .identify port progress => Sys2Proof.Machine.execIdentify port progress s
  | .resetPart port => Sys2Proof.Machine.execResetPart port s
  | .softResetFlushStep => Sys2Proof.Machine.execSoftResetFlushStep s
  | .writePlan port => Sys2Proof.Machine.execWritePlan port s
  | .setClock port => Sys2Proof.Machine.execSetClock port s
  | .startClock port => Sys2Proof.Machine.execStartClock port s
  | .stopClock port => Sys2Proof.Machine.execStopClock port s
  | .readClock port => Sys2Proof.Machine.execReadClock port s
  | .writeTariff port => Sys2Proof.Machine.execWriteTariff port s
  | .readTariff port => Sys2Proof.Machine.execReadTariff port s
  | .setSweep port => Sys2Proof.Machine.execSetSweep port s
  | .writeWindow port => Sys2Proof.Machine.execWriteWindow port s
  | .windowWriteBackStep => Sys2Proof.Machine.execWindowWriteBackStep s
  | .readWindow port => Sys2Proof.Machine.execReadWindow port s
  | .enrolStation port => Sys2Proof.Machine.execEnrolStation port s
  | .removeStation port => Sys2Proof.Machine.execRemoveStation port s
  | .readStation port => Sys2Proof.Machine.execReadStation port s
  | .leaseSet port => Sys2Proof.Machine.execLeaseSet port s
  | .releaseSet port => Sys2Proof.Machine.execReleaseSet port s
  | .startSet port => Sys2Proof.Machine.execStartSet port s
  | .stopSet port => Sys2Proof.Machine.execStopSet port s
  | .clearFault port => Sys2Proof.Machine.execClearFault port s
  | .ackAlarms port => Sys2Proof.Machine.execAckAlarms port s
  | .setMarks port => Sys2Proof.Machine.execSetMarks port s
  | .readSet port => Sys2Proof.Machine.execReadSet port s
  | .openDelivery port => Sys2Proof.Machine.execOpenDelivery port s
  | .holdDelivery port => Sys2Proof.Machine.execHoldDelivery port s
  | .resumeDelivery port => Sys2Proof.Machine.execResumeDelivery port s
  | .finishDelivery port => Sys2Proof.Machine.execFinishDelivery port s
  | .cancelDelivery port => Sys2Proof.Machine.execCancelDelivery port s
  | .readChannel port => Sys2Proof.Machine.execReadChannel port s
  | .takeDeliveryRecord port => Sys2Proof.Machine.execTakeDeliveryRecord port s
  | .assignInput port => Sys2Proof.Machine.execAssignInput port s
  | .setStage port => Sys2Proof.Machine.execSetStage port s
  | .changeOver port => Sys2Proof.Machine.execChangeOver port s
  | .abortChangeover port => Sys2Proof.Machine.execAbortChangeover port s
  | .restoreStage port => Sys2Proof.Machine.execRestoreStage port s
  | .readStage port => Sys2Proof.Machine.execReadStage port s
  | .installMap port => Sys2Proof.Machine.execInstallMap port s
  | .clearMapAll port => Sys2Proof.Machine.execClearMapAll port s
  | .clearMapUnpinned port => Sys2Proof.Machine.execClearMapUnpinned port s
  | .clearMapCircuit port => Sys2Proof.Machine.execClearMapCircuit port s
  | .readMiss port => Sys2Proof.Machine.execReadMiss port s
  | .readMap port => Sys2Proof.Machine.execReadMap port s
  | .readCircuit port => Sys2Proof.Machine.execReadCircuit port s
  | .statement port => Sys2Proof.Machine.execStatement port s
  | .performStatement => Sys2Proof.Machine.execPerformStatement s
  | .rewriteAccount port => Sys2Proof.Machine.execRewriteAccount port s
  | .performRewrite => Sys2Proof.Machine.execPerformRewrite s
  | .flushTotals port => Sys2Proof.Machine.execFlushTotals port s
  | .flushStep => Sys2Proof.Machine.execFlushStep s
  | .initTally port => Sys2Proof.Machine.execInitTally port s
  | .initTallyStep => Sys2Proof.Machine.execInitTallyStep s
  | .readTallyFault port => Sys2Proof.Machine.execReadTallyFault port s
  | .closePeriod port => Sys2Proof.Machine.execClosePeriod port s
  | .takeHireRecord port => Sys2Proof.Machine.execTakeHireRecord port s
  | .readPeriod port => Sys2Proof.Machine.execReadPeriod port s
  | .accountUpdate => Sys2Proof.Machine.execAccountUpdate s
  | .lineQuiet => Sys2Proof.Machine.execLineQuiet s
  | .replyAccepted raw => Sys2Proof.Machine.execReplyAccepted raw s
  | .transactionFault busyMs heard => Sys2Proof.Machine.execTransactionFault busyMs heard s
  | .silent activity => Sys2Proof.Machine.execSilent activity s
  | .tooLong activity => Sys2Proof.Machine.execTooLong activity s
  | .frameOutsideTransaction raw => Sys2Proof.Machine.execFrameOutsideTransaction raw s
  | .lineJammed => Sys2Proof.Machine.execLineJammed s
  | .lineClear => Sys2Proof.Machine.execLineClear s
  | .framingError port bytes => Sys2Proof.Machine.execFramingError port bytes s
  | .frameLengthBad port bytes => Sys2Proof.Machine.execFrameLengthBad port bytes s
  | .closingMarkSent => Sys2Proof.Machine.execClosingMarkSent s
  | .badFrameOutsideTransaction busyMs heard => Sys2Proof.Machine.execBadFrameOutsideTransaction busyMs heard s

end Sys2Proof.Machine
end

