-- ==== Sys2Proof/Safety.lean ====
section
/-! DEFINITION. The terms claims are stated in: a request taken on a port, the answer a step gives it, and what holds of
a machine that runs safely. -/

namespace Sys2Proof.Machine

/-! ## Requests -/

/-- R5, R6: a request has been taken on a port and is still to be judged, and the part is READY. -/
structure Offered (s : State) (p : Port) (kind tag : Byte) (payload : List Byte) : Prop where
  request : (s.port p).inProgress = some ⟨⟨kind, tag, payload⟩, false⟩
  ready : s.loader.ready = true

/-- R12: a step that ends with a reply ready on a port. -/
def State.replied (s : State) (p : Port) (r : Reply) : State := (s.answer p r).transmit

/-- R12: a step that ends with DONE ready on a port. -/
def State.didReply (s : State) (p : Port) (data : List Byte) : State := s.replied p (.done data)

/-- Checks made in order (R6 and the owner chapters): the first whose condition holds decides the refusal; where none
holds, the request is accepted. -/
def FirstDecides (checks : List (Bool × Reply)) (refused : Reply → Prop) (accepted : Prop) : Prop :=
  (∀ before r after, checks = before ++ (true, r) :: after → (∀ c ∈ before, c.1 = false) → refused r) ∧
    ((∀ c ∈ checks, c.1 = false) → accepted)

/-- What becomes of a member of the waiting list when the list is examined (R57, R59). -/
inductive Fate where
  | entered
  | ended (o : CommandOutcome)
  | waits
deriving DecidableEq, Repr

/-- The commands of those members that entered the queue. -/
def enteredOf (fates : List (Command × Fate)) : List Command := (fates.filter fun x => x.2 == .entered).map fun x => x.1

/-- The outcomes told of those members that ended. -/
def endedOf (fates : List (Command × Fate)) : List Told :=
  fates.filterMap fun x =>
    match x.2 with
    | .ended o => some (.outcome x.1 o)
    | .entered => none
    | .waits => none

/-- The commands of those members that go on waiting. -/
def waitingOf (fates : List (Command × Fate)) : List Command := (fates.filter fun x => x.2 == .waits).map fun x => x.1

/-- R54, R57, R59: the fate of a member, given the queue it finds: REMOVED where its station was removed while it waited,
else by the station table of that moment (log entry 41). -/
def fateOf (l : Line) (c : Command) : Fate :=
  if l.hasRoom c.rank then
    if c.removed then .ended .removed
    else
      match l.station c.order.cls c.object with
      | none => .ended .removed
      | some st => if st.state = .lost then .ended .noAnswer else .entered
  else .waits

/-- R57, R59: the waiting list of `s` has been examined, oldest member first, and `t` is what that leaves: a member that
finds no room waits on; one that finds room enters the queue, or ends at once, its outcome told, where its station was removed
while it waited, is not enrolled or is LOST. Nothing else changes. -/
def AdmitsWaiting (s t : State) : Prop :=
  ∃ fates : List (Command × Fate),
    fates.map (fun x => x.1) = s.line.waiting ∧
      (∀ before c fate after, fates = before ++ (c, fate) :: after →
        fate = fateOf { s.line with queue := s.line.queue ++ enteredOf before } c) ∧
      t = { s with
        line := { s.line with queue := s.line.queue ++ enteredOf fates, waiting := waitingOf fates }
        told := s.told ++ endedOf fates }

/-- R92, R101: channel `c`, with record `y`, is the one whose delivery `d` is open to set `i` (the lowest, were there two). -/
structure OpenTo (s : State) (i c : Nat) (y : Channel) (d : Delivery) : Prop where
  channel : s.channel c = some y
  isOpen : y.open_ = some d
  target : d.set = i
  first : ∀ j < c, ∀ z e, s.channel j = some z → z.open_ = some e → e.set ≠ i

/-- R165, R188: operation `o`, no account update, is the one performed next, and `rest` is the list without it: it is at the
front, or behind nothing but account updates while INIT TALLY is outstanding. -/
def Performs (work : List WorkOp) (o : WorkOp) (rest : List WorkOp) : Prop :=
  ∃ passed after : List WorkOp,
    work = passed ++ o :: after ∧ rest = passed ++ after ∧
      (passed = [] ∨ ((∀ x ∈ passed, ∃ u, x = .update u) ∧ ∃ x ∈ o :: after, x.isInit = true))

/-- The port and the row of R7 of a request command. -/
def requestOf : Instr → Option (Port × RequestRow)
  | .identify p _ => some (p, .identify)
  | .resetPart p => some (p, .resetPart)
  | .writePlan p => some (p, .writePlan)
  | .setClock p => some (p, .setClock)
  | .startClock p => some (p, .startClock)
  | .stopClock p => some (p, .stopClock)
  | .readClock p => some (p, .readClock)
  | .writeTariff p => some (p, .writeTariff)
  | .readTariff p => some (p, .readTariff)
  | .setSweep p => some (p, .setSweep)
  | .writeWindow p => some (p, .writeWindow)
  | .readWindow p => some (p, .readWindow)
  | .enrolStation p => some (p, .enrolStation)
  | .removeStation p => some (p, .removeStation)
  | .readStation p => some (p, .readStation)
  | .leaseSet p => some (p, .leaseSet)
  | .releaseSet p => some (p, .releaseSet)
  | .startSet p => some (p, .startSet)
  | .stopSet p => some (p, .stopSet)
  | .clearFault p => some (p, .clearFault)
  | .ackAlarms p => some (p, .ackAlarms)
  | .setMarks p => some (p, .setMarks)
  | .readSet p => some (p, .readSet)
  | .openDelivery p => some (p, .openDelivery)
  | .holdDelivery p => some (p, .holdDelivery)
  | .resumeDelivery p => some (p, .resumeDelivery)
  | .finishDelivery p => some (p, .finishDelivery)
  | .cancelDelivery p => some (p, .cancelDelivery)
  | .readChannel p => some (p, .readChannel)
  | .takeDeliveryRecord p => some (p, .takeDeliveryRecord)
  | .assignInput p => some (p, .assignInput)
  | .setStage p => some (p, .setStage)
  | .changeOver p => some (p, .changeOver)
  | .abortChangeover p => some (p, .abortChangeover)
  | .restoreStage p => some (p, .restoreStage)
  | .readStage p => some (p, .readStage)
  | .installMap p => some (p, .installMap)
  | .clearMapAll p => some (p, .clearMap)
  | .clearMapUnpinned p => some (p, .clearMap)
  | .clearMapCircuit p => some (p, .clearMap)
  | .readMiss p => some (p, .readMiss)
  | .readMap p => some (p, .readMap)
  | .readCircuit p => some (p, .readCircuit)
  | .statement p => some (p, .statement)
  | .rewriteAccount p => some (p, .rewriteAccount)
  | .flushTotals p => some (p, .flushTotals)
  | .initTally p => some (p, .initTally)
  | .readTallyFault p => some (p, .readTallyFault)
  | .closePeriod p => some (p, .closePeriod)
  | .takeHireRecord p => some (p, .takeHireRecord)
  | .readPeriod p => some (p, .readPeriod)
  | .hardReset _ => none
  | .planLoaded => none
  | .softReset => none
  | .timeBaseStep => none
  | .clockIncrement => none
  | .sweepDue => none
  | .wholeSecond => none
  | .crankTimerExpiry _ => none
  | .crankRestExpiry _ => none
  | .warmUpExpiry _ => none
  | .coolDownExpiry _ => none
  | .settleExpiry _ => none
  | .prepareExpiry _ => none
  | .confirmExpiry _ => none
  | .deadTimeExpiry _ => none
  | .frameComplete _ _ => none
  | .frameGap _ _ => none
  | .frameTransmitted _ => none
  | .unknownRequest _ => none
  | .softResetFlushStep => none
  | .windowWriteBackStep => none
  | .performStatement => none
  | .performRewrite => none
  | .flushStep => none
  | .initTallyStep => none
  | .accountUpdate => none
  | .lineQuiet => none
  | .replyAccepted _ => none
  | .transactionFault _ _ => none
  | .silent _ => none
  | .tooLong _ => none
  | .frameOutsideTransaction _ => none
  | .lineJammed => none
  | .lineClear => none
  | .framingError _ _ => none
  | .frameLengthBad _ _ => none
  | .closingMarkSent => none
  | .badFrameOutsideTransaction _ _ => none

/-- Which frames of its row's kind a request command judges: the three commands of CLEAR MAP share one kind (log entry 7),
every other command judges them all. -/
def takesForm : Instr → Frame → Bool
  | .clearMapAll _, f => takesClearMap 0 f
  | .clearMapUnpinned _, f => takesClearMap 1 f
  | .clearMapCircuit _, f => takesClearMap 2 f
  | _, _ => true

/-! ## What holds of a machine that runs safely -/

/-- R4, R13: a port's buffer and notice queue are within their room. -/
def PortState.bounded (q : PortState) : Prop := q.buffer.length ≤ Config.bufferCap ∧ q.notices.length ≤ Config.noticeCap

/-- R57: the command queue is within its room, and two places are kept for SAFETY. -/
def Line.bounded (l : Line) : Prop :=
  l.queue.length ≤ Config.queueCap ∧ (l.queue.filter fun c => c.rank != .safety).length ≤ Config.plainCap

/-- Both memories are in canonical form. -/
def State.memoriesCanonical (s : State) : Prop := s.planMem.wf = true ∧ s.tallyMem.wf = true

/-- R150: what a circuit's cursor has moved from its base is what was credited and rejected, modulo 2^32. -/
def Circuit.balanced (r : Circuit) : Prop := (r.credited + r.rejected).setWidth 32 = r.cursor - r.base

/-- R143: an UNREAD circuit has neither credited nor rejected anything. -/
def Circuit.blankIfUnread (r : Circuit) : Prop := r.state = .unread → r.credited = 0 ∧ r.rejected = 0

/-- R160: a billing in flight was formed from its circuit's cursor, which has stayed. -/
def State.billingFits (s : State) (b : Billing) : Prop :=
  b.stale = false → ∀ r, s.circuit b.circuit = some r → r.state ≠ .unread ∧ b.delta = b.reading - r.cursor

/-- R150, R160: the books of every circuit balance: the law of R150, and what keeps it: no circuit has two billings in
flight, and each billing in flight fits its circuit. -/
def State.booksBalance (s : State) : Prop :=
  (∀ c r, s.circuit c = some r → r.balanced ∧ r.blankIfUnread) ∧
    (s.billing.inFlight.map fun b => b.circuit).Nodup ∧
    ∀ b ∈ s.billing.inFlight, s.billingFits b

/-- R148: no two entries of the map name one circuit. -/
def BillingEngine.mapSingle (b : BillingEngine) : Prop :=
  ∀ i j x y, b.map.used i = some x → b.map.used j = some y → x.circuit = y.circuit → i = j

/-- R116: every delivery opened is on a channel, in the log, or taken. -/
def Deliveries.accounted (d : Deliveries) : Prop :=
  (d.channels.cells.countP fun c => !c.isIdle) + d.log.length + d.taken = d.opened

/-- R167, R184: a line holds an account of its own number modulo 64 that is not quarantined; the quarantine list holds at
most 8 accounts, each once. -/
def Tally.sound (t : Tally) : Prop :=
  (∀ n l, t.lines.used n = some l → l.account % 64 = n ∧ l.account ∉ t.quarantine) ∧
    t.quarantine.Nodup ∧ t.quarantine.length ≤ Config.quarantineCap

/-- R196: lines held and places kept for the counted sets of a close are within the hire queue's room. -/
def Period.placesKept (p : Period) : Prop :=
  p.hire.length + (p.close.elim 0 fun c => c.counted.length) ≤ Config.hireCap

/-- R19: the clock's value is within its range. -/
def Clock.inRange (c : Clock) : Prop := c.day ≤ Config.lastDay ∧ c.second ≤ Config.lastSecond

end Sys2Proof.Machine
end

