-- ==== Sys2Proof/Certificates/Slice0/Obligations.lean ====
section
/-! DEFINITION. The statements for the provers, chapter by chapter of the spec. `finish` is the end of a step that told other
blocks something (log entries 9 to 11), `transmit` what the transmitters then begin (log entry 25). -/

open Sys2Proof Sys2Proof.Machine

/-! ## The block -/

/-- The command at the front of the queue leaves it and takes effect on what is left; on an empty queue the block
idles (the model's choice, log entry 1). -/
def Obligations.StepRunsTheFrontCommand : Prop :=
  (∀ (c : Instr) (rest : List Instr) (s : State), s.pending = c :: rest → step s = exec c { s with pending := rest }) ∧
    ∀ s : State, s.pending = [] → step s = .next s

/-- A hard reset: every block takes its reset values, whatever the state was; the two memories keep their bytes, but
for those of a write cut short in either of them; the commands that wait stay. The values are then said field by field. What
a write cut short leaves, and that one outside its memory writes nothing, is the model's choice (log entry 22). -/
def Obligations.HardResetGivesResetValues : Prop :=
  (∀ s : State,
      let after := fun (plan tally : Memory) =>
        ({ State.reset with
          planMem := plan, tallyMem := tally, planFitted := s.planFitted, bank0Fitted := s.bank0Fitted,
          bank1Fitted := s.bank1Fitted, pending := s.pending } : State)
      exec (.hardReset none) s = .next (after s.planMem s.tallyMem) ∧
        ∀ (a : Nat) (bs : List Byte),
          (a + bs.length ≤ 55296 →
              exec (.hardReset (some ⟨true, a, bs⟩)) s = .next (after s.planMem (Memory.writeBytes s.tallyMem a bs))) ∧
            (a + bs.length ≤ 65540 →
              exec (.hardReset (some ⟨false, a, bs⟩)) s = .next (after (Memory.writeBytes s.planMem a bs) s.tallyMem)) ∧
            (55296 < a + bs.length →
              exec (.hardReset (some ⟨true, a, bs⟩)) s = .next (after s.planMem s.tallyMem)) ∧
            (65540 < a + bs.length →
              exec (.hardReset (some ⟨false, a, bs⟩)) s = .next (after s.planMem s.tallyMem))) ∧
    State.reset.clock = ⟨.unset, 0, 0, 0, [], 300, 250000, 0⟩ ∧
    State.reset.yard = ⟨.hunting, [], none, none, none, [], false, false⟩ ∧
    State.reset.office = ⟨.hunting, [], none, none, none, [], false, false⟩ ∧
    (∀ k < 4, State.reset.windows.account.get k = some ⟨false, 0, 0, false, false, false, false, .through, 0⟩) ∧
    (∀ k < 2, State.reset.windows.sets.get k = some ⟨false, 0, 0, false, false, false, false⟩) ∧
    (∀ e < 40, State.reset.line.stations.get e = some none) ∧
    State.reset.line.queue = [] ∧ State.reset.line.waiting = [] ∧ State.reset.line.sincePoll = 0 ∧
    State.reset.line.pointer = 0 ∧ State.reset.line.round = 0 ∧ State.reset.line.jammed = false ∧
    State.reset.line.jamTimer = 0 ∧ State.reset.line.quietTimer = 0 ∧ State.reset.line.rx = .hunting ∧
    (∀ i < 12, State.reset.sets.get i = some none ∧ State.reset.marks.get i = some ⟨400, 600, 9000, 9500⟩) ∧
    (∀ c < 3, State.reset.deliveries.channels.get c = some ⟨none, .idle⟩) ∧
    State.reset.deliveries.log = [] ∧ State.reset.deliveries.opened = 0 ∧ State.reset.deliveries.taken = 0 ∧
    (∀ k < 8, State.reset.stages.get k = some ⟨none, none, .unknown, false, 3, none, false, false⟩) ∧
    (∀ c < 96, ∃ r, State.reset.billing.circuits.get c = some r ∧ r.state = .unread ∧ r.stage = 0 ∧ r.base = 0 ∧
      r.last = 0 ∧ r.cursor = 0 ∧ r.credited = 0 ∧ r.rejected = 0 ∧ r.straddled = false ∧ r.implausible = false) ∧
    (∀ e < 32, State.reset.billing.map.get e = some none) ∧ State.reset.billing.pointer = 0 ∧
    State.reset.billing.miss = none ∧ State.reset.billing.sweep = none ∧ State.reset.billing.inFlight = [] ∧
    (∀ k < 8, ∃ x, State.reset.billing.streams.get k = some x ∧ x.requests = []) ∧
    (∀ n < 64, State.reset.tally.lines.get n = some none) ∧
    State.reset.tally.work = [] ∧ State.reset.tally.quarantine = [] ∧ State.reset.tally.fault = none ∧
    State.reset.tally.corrected = 0 ∧ State.reset.tally.bank0 = true ∧ State.reset.tally.bank1 = false ∧
    State.reset.period = ⟨0, ⟨0, 0⟩, [], none⟩ ∧
    State.reset.loader.ready = false ∧ State.reset.loader.lastSoft = false ∧ State.reset.loader.section_ = none

/-! ## Console ports (01) -/

/-- R3: the check of the nine digits, and what makes it a check: bytes followed by their own check leave the register
at 0, so a receiver that runs the check bytes through finds 0. -/
def Obligations.CheckOverBytes : Prop :=
  crc16 [0x31, 0x32, 0x33, 0x34, 0x35, 0x36, 0x37, 0x38, 0x39] = 0x29B1#16 ∧
    crc16 [] = 0xFFFF#16 ∧
    ∀ bs : List Byte, crc16 (bs ++ checkBytes bs) = 0#16

/-- R1, R2, R4: the bytes of a frame of up to 120 payload bytes, heard by a hunting receiver, are offered to the
buffer as that frame: it joins the back of a buffer that holds fewer than 2 and is otherwise discarded, setting the
flag (what the handler then takes is `transmit`); a frame with another check changes nothing, and neither does one cut
short by a gap or a framing error, or ended by a bad length. -/
def Obligations.FramesAreReceived : Prop :=
  (∀ (p : Port) (s : State) (f : Frame), f.payload.length ≤ 120 → (s.port p).rx = .hunting →
      exec (.frameComplete p f.bytes) s =
        .next (s.withPort p fun q =>
          if q.buffer.length < 2 then { q with buffer := q.buffer ++ [f] } else { q with inputDiscarded := true }).transmit) ∧
    (∀ (p : Port) (s : State) (len : Byte) (counted check : List Byte),
      (s.port p).rx = .hunting → 2 ≤ len.toNat → len.toNat ≤ 122 → counted.length = len.toNat → check.length = 2 →
      check ≠ checkBytes (len :: counted) →
        exec (.frameComplete p (0x5A :: len :: (counted ++ check))) s = .next s.transmit) ∧
  (∀ (p : Port) (s : State) (len : Byte) (got : List Byte),
      (s.port p).rx = .hunting → 2 ≤ len.toNat → len.toNat ≤ 122 → got.length < len.toNat + 2 →
        exec (.frameGap p (0x5A :: len :: got)) s = .next s.transmit ∧
          exec (.framingError p (0x5A :: len :: got)) s = .next s.transmit) ∧
    (∀ (p : Port) (s : State),
        exec (.frameGap p []) s = .next (s.withPort p fun q => { q with rx := .hunting }).transmit ∧
          exec (.framingError p []) s = .next (s.withPort p fun q => { q with rx := .hunting }).transmit) ∧
    ∀ (p : Port) (s : State) (len : Byte),
      (s.port p).rx = .hunting → len.toNat < 2 ∨ 122 < len.toNat →
        exec (.frameLengthBad p [0x5A, len]) s = .next s.transmit

/-- R5, R8, R12, R14: the end of a frame leaves the transmitter free; the end of a reply also ends the request in
progress. What an idle transmitter begins at the end of a step: the waiting reply, with the request's tag and INPUT
DISCARDED; else the oldest notice, with tag 0 and NOTICES DROPPED; else nothing. The flag sent is cleared. R9, R10: the
values of the reply kinds, what each carries after the status byte, and the values of the refusal codes. A busy
transmitter goes on. R5, R17: a handler without a request in progress then takes the oldest frame of its buffer, unless
a soft reset is due. The other blocks are as they were. That both happen at the end of a step is the model's reading
(log entries 7, 25 and 27). -/
def Obligations.TransmitterSendsReplyBeforeNotice : Prop :=
  (∀ (p : Port) (s : State) (f : Sending), (s.port p).tx = some f →
    exec (.frameTransmitted p) s =
      .next (s.withPort p fun q =>
        { q with tx := none, inProgress := if f.isReply then none else q.inProgress }).transmit) ∧
  (∀ (q : PortState) (x : Sending), q.tx = some x → q.kick = q) ∧
    (∀ (q : PortState) (r : Reply) (a : InProgress), q.tx = none → q.waiting = some r → q.inProgress = some a →
      q.kick =
        { q with
          tx := some ⟨⟨r.kind, a.tag, (if q.inputDiscarded then 1#8 else 0#8) :: r.data⟩, true⟩
          waiting := none
          inputDiscarded := false }) ∧
    (∀ (q : PortState) (n : Notice) (rest : List Notice), q.tx = none → q.waiting = none → q.notices = n :: rest →
      q.kick =
        { q with
          tx := some
            ⟨⟨n.kind.value, 0,
              (if q.noticesDropped then 2#8 else 0#8) :: (be 1 n.stamp.day ++ be 3 n.stamp.second ++ n.data)⟩, false⟩
          notices := rest
          noticesDropped := false }) ∧
    (∀ data : List Byte, (Reply.done data).kind = 0x80 ∧ (Reply.done data).data = data) ∧
    (Reply.accepted.kind = 0x81 ∧ Reply.accepted.data = []) ∧
    (∀ (code : Refuse) (field window : Nat),
      let value : Nat :=
        match code with
        | .format => 0x01
        | .unknown => 0x02
        | .role => 0x03
        | .denied => 0x04
        | .range => 0x05
        | .state => 0x06
        | .busy => 0x07
        | .full => 0x08
        | .empty => 0x09
        | .absent => 0x0A
        | .conflict => 0x0B
        | .tooLate => 0x0C
        | .notLeased => 0x0D
        | .noHeadroom => 0x0E
        | .loading => 0x0F
      (Reply.refused code field window).kind = 0x82 ∧
        (Reply.refused code field window).data = be 1 value ++ be 1 field ++ be 1 window) ∧
    (∀ q : PortState, q.tx = none → q.waiting = none → q.notices = [] → q.kick = q) ∧
    (∀ (q : PortState) (b : Bool) (x : InProgress), q.inProgress = some x → q.takeNext b = q) ∧
    (∀ (q : PortState) (b : Bool), q.buffer = [] ∨ b = false → q.takeNext b = q) ∧
    (∀ (q : PortState) (f : Frame) (rest : List Frame), q.inProgress = none → q.buffer = f :: rest →
      q.takeNext true = { q with buffer := rest, inProgress := some ⟨f, false⟩ }) ∧
    ∀ s : State,
      s.transmit =
        { s with
          yard := s.yard.kick.takeNext (!s.loader.resetDue)
          office := s.office.kick.takeNext (!s.loader.resetDue) }

/-- R13, R15: a notice, stamped with the present clock value, joins the queue of each port its kind belongs to, or is
dropped there and sets the flag. The ports and the value of each kind. -/
def Obligations.NoticeJoinsItsPorts : Prop :=
  (∀ (s : State) (k : NoticeKind) (data : List Byte) (p : Port),
      (s.post k data).port p =
        if k.goesTo p then
          if (s.port p).notices.length < 16 then
            { s.port p with notices := (s.port p).notices ++ [⟨k, ⟨s.clock.day, s.clock.second⟩, data⟩] }
          else { s.port p with noticesDropped := true }
        else s.port p) ∧
    (∀ p, ([.started, .clockEnded, .deliveryClosed] : List NoticeKind).all fun k => k.goesTo p) ∧
    (([.setState, .alarmChange, .fuelLow, .fuelLowClear, .unexplainedRise, .stationLost, .stationBack, .lineJammed,
        .lineClear, .deliveryHalted, .changeoverEnded, .noAlternate, .stageState] : List NoticeKind).all fun k =>
      k.goesTo .yard && !k.goesTo .office) ∧
    (([.logFull, .mapMiss, .implausible, .tallyFault, .periodClosed] : List NoticeKind).all fun k =>
      k.goesTo .office && !k.goesTo .yard) ∧
    ∀ k : NoticeKind,
      k.value =
        match k with
        | .started => 0xA0
        | .clockEnded => 0xA1
        | .deliveryClosed => 0xA2
        | .setState => 0xA8
        | .alarmChange => 0xA9
        | .fuelLow => 0xAA
        | .fuelLowClear => 0xAB
        | .unexplainedRise => 0xAC
        | .stationLost => 0xAD
        | .stationBack => 0xAE
        | .lineJammed => 0xAF
        | .lineClear => 0xB0
        | .deliveryHalted => 0xB1
        | .changeoverEnded => 0xB2
        | .noAlternate => 0xB3
        | .stageState => 0xB4
        | .logFull => 0xB8
        | .mapMiss => 0xB9
        | .implausible => 0xBA
        | .tallyFault => 0xBB
        | .periodClosed => 0xBC

/-- R6, R7: the handler's checks of a request it has taken. Check 1: a kind that is no request is refused UNKNOWN, in
LOADING too. Checks 2 to 4 of every request command, in their order. A request that fails one is refused and nothing
else changes. A request judged before is not judged again, and one of another kind is not judged by the command: nothing
happens (the model's choice, log entries 2 and 7). -/
def Obligations.HandlerRefusesBeforeTheOwner : Prop :=
  (∀ (p : Port) (s : State) (f : Frame), (s.port p).inProgress = some ⟨f, false⟩ → (∀ r ∈ requestRows, r.kind ≠ f.kind) →
      exec (.unknownRequest p) s = .next ((s.judged p).replied p (.refused .unknown 0 0xFF))) ∧
  (∀ (c : Instr) (p : Port) (row : RequestRow) (s : State) (f : Frame),
    requestOf c = some (p, row) → (s.port p).inProgress = some ⟨f, false⟩ → f.kind = row.kind → takesForm c f = true →
      (s.loader.ready = false → row.kind ≠ 0x01 →
          exec c s = .next ((s.judged p).replied p (.refused .loading 0 0xFF))) ∧
        ((s.loader.ready = true ∨ row.kind = 0x01) → row.allowedOn p = false →
          exec c s = .next ((s.judged p).replied p (.refused .role 0 0xFF))) ∧
        ∀ r, (s.loader.ready = true ∨ row.kind = 0x01) → row.allowedOn p = true → row.layout.parse f.payload = .error r →
          exec c s = .next ((s.judged p).replied p r)) ∧
  ∀ (c : Instr) (p : Port) (row : RequestRow) (s : State), requestOf c = some (p, row) →
    (∀ x, (s.port p).inProgress = some x → x.judged = true ∨ x.kind ≠ row.kind) → exec c s = .next s.transmit

/-- R6, check 4: what a payload of a fixed layout and one of a count and list is refused for, and what it parses to.
Which refusal a count and list gets is the model's reading (log entry 8). -/
def Obligations.PayloadsAreCheckedAgainstTheirLayout : Prop :=
  (∀ (widths : List Nat) (bs : List Byte), bs.length = widths.sum →
      (Layout.fixed widths).parse bs = .ok (fieldValues widths bs)) ∧
    (∀ (widths : List Nat) (bs : List Byte), widths.sum < bs.length →
      (Layout.fixed widths).parse bs = .error (.refused .format 0 0xFF)) ∧
    (∀ (widths : List Nat) (bs : List Byte) (k : Nat), k < widths.length → (widths.take k).sum ≤ bs.length →
      bs.length < (widths.take (k + 1)).sum →
        (Layout.fixed widths).parse bs = .error (.refused .format (k + 1) 0xFF)) ∧
    (∀ (before : List Nat) (cap : Nat) (entry : List Nat) (bs : List Byte), bs.length ≤ before.sum →
      (Layout.list before cap entry).parse bs = .error (.refused .format (before.length + 1) 0xFF)) ∧
    ∀ (before : List Nat) (cap : Nat) (entry : List Nat) (head tail : List Byte) (count : Byte),
      head.length = before.sum →
        (cap < count.toNat →
          (Layout.list before cap entry).parse (head ++ count :: tail) = .error (.refused .range (before.length + 1) 0xFF)) ∧
        (count.toNat ≤ cap → tail.length ≠ count.toNat * entry.sum →
          (Layout.list before cap entry).parse (head ++ count :: tail) = .error (.refused .format (before.length + 1) 0xFF)) ∧
        (count.toNat ≤ cap → tail.length = count.toNat * entry.sum →
          ∃ v, (Layout.list before cap entry).parse (head ++ count :: tail) = .ok v ∧
            v.take (before.length + 1) = fieldValues before head ++ [count.toNat])

/-! ## Festival clock and tariff calendar (02) -/

/-- R20: SET CLOCK gives an UNSET clock the day and second, phase 0. R21: START CLOCK makes an UNSET or STOPPED clock
RUNNING, phase and elapsed count 0. R22: STOP CLOCK makes a RUNNING clock STOPPED. A second above 86399 is refused
RANGE, another state STATE, and nothing else changes. -/
def Obligations.ClockIsSetStartedAndStopped : Prop :=
  (∀ (s : State) (tag : Byte) (day second : Nat), day < 256 → second < 16777216 →
      Offered s .office 0x10 tag (be 1 day ++ be 3 second) →
        (86399 < second →
            exec (.setClock .office) s =
              .next ((s.judged .office).replied .office (.refused .range 2 0xFF))) ∧
          (second ≤ 86399 → s.clock.state ≠ .unset →
            exec (.setClock .office) s =
              .next ((s.judged .office).replied .office (.refused .state 0 0xFF))) ∧
          (second ≤ 86399 → s.clock.state = .unset →
            exec (.setClock .office) s =
              .next (({ s.judged .office with
                clock := { s.clock with state := .unset, day := day, second := second, phase := 0 } } : State).didReply
                  .office []))) ∧
    (∀ (s : State) (tag : Byte), Offered s .office 0x11 tag [] →
        (s.clock.state = .unset ∨ s.clock.state = .stopped →
            exec (.startClock .office) s =
              .next (({ s.judged .office with
                clock := { s.clock with state := .running, phase := 0, elapsed := 0 } } : State).didReply .office [])) ∧
          (s.clock.state = .running ∨ s.clock.state = .ended →
            exec (.startClock .office) s =
              .next ((s.judged .office).replied .office (.refused .state 0 0xFF)))) ∧
      ∀ (s : State) (tag : Byte), Offered s .office 0x12 tag [] →
        (s.clock.state = .running →
            exec (.stopClock .office) s =
              .next (({ s.judged .office with
                clock := { s.clock with state := .stopped, phase := 0 } } : State).didReply .office [])) ∧
          (s.clock.state ≠ .running →
            exec (.stopClock .office) s =
              .next ((s.judged .office).replied .office (.refused .state 0 0xFF)))

/-- R23, R24: an increment of a RUNNING clock whose phase has reached 10: a second on, into the next day from second
86399, with 1 added to the elapsed count; past day 255, second 86399 it does not happen and the clock becomes ENDED.
That an increment is due at phase 10 is how the model keeps it (log entry 3). -/
def Obligations.ClockIncrementAddsASecond : Prop :=
  ∀ s : State, s.clock.state = .running → s.clock.phase = 10 →
    (s.clock.second < 86399 →
        exec .clockIncrement s =
          .next ({ s with
            clock := { s.clock with
              second := s.clock.second + 1, phase := 0,
              elapsed := s.clock.elapsed + 1 } } : State).transmit) ∧
      (s.clock.second = 86399 → s.clock.day < 255 →
        exec .clockIncrement s =
          .next ({ s with
            clock := { s.clock with
              day := s.clock.day + 1, second := 0, phase := 0,
              elapsed := s.clock.elapsed + 1 } } : State).transmit) ∧
      (s.clock.second = 86399 → s.clock.day = 255 →
        exec .clockIncrement s =
          .next (({ s with clock := { s.clock with state := .ended, phase := 0 } } : State).post .clockEnded []).transmit)

/-- R25, R27: READ CLOCK and READ TARIFF, on either port, carry the clock's fields and the calendar and change nothing
else. R27: the band of a second: that of the entry whose stretch holds it, that of the last entry before the first
entry's start, and 0 with no entries. -/
def Obligations.ClockCalendarAndBand : Prop :=
  ((∀ (s : State) (p : Port) (tag : Byte), Offered s p 0x13 tag [] →
        exec (.readClock p) s =
          .next ((s.judged p).didReply p
            (be 1 (match s.clock.state with | .unset => 0 | .stopped => 1 | .running => 2 | .ended => 3) ++
              be 1 s.clock.day ++ be 3 s.clock.second ++ be 2 s.clock.interval ++ be 4 s.clock.limit ++
              be 2 (if s.clock.state = .running then s.clock.interval - s.clock.elapsed else 0) ++
              be 1 (bandAt s.clock.tariff s.clock.second)))) ∧
      ∀ (s : State) (p : Port) (tag : Byte), Offered s p 0x15 tag [] →
        exec (.readTariff p) s =
          .next ((s.judged p).didReply p
            (be 1 s.clock.tariff.length ++ (s.clock.tariff.flatMap fun e => be 3 e.start ++ be 1 e.band) ++
              be 1 (bandAt s.clock.tariff s.clock.second)))) ∧
    (∀ second, bandAt [] second = 0) ∧
      (∀ (before : List TariffEntry) (e : TariffEntry) (after : List TariffEntry) (second : Nat),
        ((before ++ e :: after).Pairwise fun a b => a.start < b.start) → e.start ≤ second →
        (∀ x ∈ after, second < x.start) → bandAt (before ++ e :: after) second = e.band) ∧
      ∀ (before : List TariffEntry) (e : TariffEntry) (second : Nat),
        (∀ x ∈ before ++ [e], second < x.start) → bandAt (before ++ [e]) second = e.band

/-- R26: WRITE TARIFF of a well-formed list of entries replaces the calendar; the first start second out of range or
not above the one before, or band above 3, decides the refusal. -/
def Obligations.WriteTariffReplacesTheCalendar : Prop :=
  ∀ (s : State) (tag : Byte) (entries : List TariffEntry),
    entries.length ≤ 8 → (∀ e ∈ entries, e.start < 16777216 ∧ e.band < 256) →
    Offered s .office 0x14 tag (be 1 entries.length ++ entries.flatMap fun e => be 3 e.start ++ be 1 e.band) →
      let t := s.judged .office
      ((entries.Pairwise fun a b => a.start < b.start) → (∀ e ∈ entries, e.start ≤ 86399 ∧ e.band ≤ 3) →
          exec (.writeTariff .office) s =
            .next (({ t with clock := { s.clock with tariff := entries } } : State).didReply .office [])) ∧
        ∀ (good : List TariffEntry) (e : TariffEntry) (more : List TariffEntry), entries = good ++ e :: more →
          (good.Pairwise fun a b => a.start < b.start) → (∀ x ∈ good, x.start ≤ 86399 ∧ x.band ≤ 3) →
            (86399 < e.start ∨ (∃ x ∈ good, e.start ≤ x.start) →
              exec (.writeTariff .office) s = .next (t.replied .office (.refused .range (2 * good.length + 2) 0xFF))) ∧
            (e.start ≤ 86399 → (∀ x ∈ good, x.start < e.start) → 3 < e.band →
              exec (.writeTariff .office) s = .next (t.replied .office (.refused .range (2 * good.length + 3) 0xFF)))

/-- R29: SET SWEEP. R28, R163: a sweep falls due when the elapsed count has reached the interval: the count returns to
0, and a TIMED sweep starts at circuit 0 unless a sweep or a period close is in progress; before that nothing happens.
That the elapsed count is judged by its own command is how the model keeps it (log entry 3). -/
def Obligations.SweepSettingsAndSweepDue : Prop :=
  (∀ (s : State) (tag : Byte) (interval limit : Nat), interval < 65536 → limit < 4294967296 →
      Offered s .office 0x45 tag (be 2 interval ++ be 4 limit) →
        let t := s.judged .office
        (interval < 60 ∨ 900 < interval →
            exec (.setSweep .office) s = .next (t.replied .office (.refused .range 1 0xFF))) ∧
          (60 ≤ interval → interval ≤ 900 → limit < 1000 ∨ 4000000 < limit →
            exec (.setSweep .office) s = .next (t.replied .office (.refused .range 2 0xFF))) ∧
          (60 ≤ interval → interval ≤ 900 → 1000 ≤ limit → limit ≤ 4000000 →
            exec (.setSweep .office) s =
              .next (({ t with clock := { s.clock with interval := interval, limit := limit, elapsed := 0 } } :
                State).didReply .office []))) ∧
    (∀ s : State, s.clock.elapsed = s.clock.interval →
        let u : State := { s with clock := { s.clock with elapsed := 0 } }
        (s.billing.sweep = none → s.period.close = none →
            exec .sweepDue s =
              .next ((({ u with
                billing := { s.billing with sweep := some ⟨.timed, 0⟩, closingCalled := false } } : State).tell
                  (.bill .sweep)).finish).transmit) ∧
          (s.billing.sweep ≠ none ∨ s.period.close ≠ none → exec .sweepDue s = .next u.finish.transmit)) ∧
      ∀ s : State, s.clock.elapsed < s.clock.interval → exec .sweepDue s = .next s.finish.transmit

/-- R23, R30, R66, R88: a time-base step: a RUNNING clock's phase and the count toward the next whole second go up by
one; the timers of sets, channels and stages that run come one step nearer their expiry; the line's time JAMMED
counts, saturating (that it counts these steps is the model's choice, log entry 4). Nothing else changes, but that idle
transmitters begin what they may. A whole second: one second of runtime, saturating, for each leased set WARMING, ONLINE
or COOLING whose last report shows RUNNING, and for no other. That a whole second is due at 10 tenths is how the model
keeps it (log entry 3). -/
def Obligations.TimeBaseStepAndWholeSecond : Prop :=
  (∀ s : State, ∃ t : State, exec .timeBaseStep s = .next t.transmit ∧
    t.clock = (if s.clock.state = .running then { s.clock with phase := s.clock.phase + 1 } else s.clock) ∧
    t.tenths = s.tenths + 1 ∧
    t.line = (if s.line.jammed then { s.line with jammedTenths := min (s.line.jammedTenths + 1) 65535 } else s.line) ∧
    (∀ i r, s.set i = some r →
      t.set i = some { r with timer := r.timer.map fun x => { x with left := x.left - 1 } }) ∧
    (∀ i, s.set i = none → t.set i = none) ∧
    (∀ c x d n, s.channel c = some x → x.state = .settling d n →
      t.channel c = some { x with state := .settling d (n - 1) }) ∧
    (∀ c x, s.channel c = some x → (∀ d n, x.state ≠ .settling d n) → t.channel c = some x) ∧
    (∀ k x c, s.stage k = some x → x.state = .changing c →
      t.stage k = some { x with state := .changing { c with timer := c.timer.map fun y => { y with left := y.left - 1 } } }) ∧
    (∀ k x, s.stage k = some x → (∀ c, x.state ≠ .changing c) → t.stage k = some x) ∧
    t.deliveries.log = s.deliveries.log ∧ t.deliveries.opened = s.deliveries.opened ∧
    t.deliveries.taken = s.deliveries.taken ∧ t.deliveries.nextHeld = s.deliveries.nextHeld ∧
    { t with clock := s.clock, tenths := s.tenths, line := s.line, sets := s.sets, deliveries := s.deliveries,
             stages := s.stages } = s) ∧
  ∀ s : State, s.tenths = 10 →
    ∃ t : State, exec .wholeSecond s = .next t.transmit ∧ t.tenths = 0 ∧
      (∀ i r l x, s.set i = some r → r.lease = some l → r.report = some x → x.engine = .running →
        r.state.name = .warming ∨ r.state.name = .online ∨ r.state.name = .cooling →
          t.set i = some { r with
            lease := some { l with
              total := { l.total with runtime := BitVec.ofNat 32 (min (l.total.runtime.toNat + 1) 4294967295) }
              current := { l.current with runtime := BitVec.ofNat 32 (min (l.current.runtime.toNat + 1) 4294967295) } } }) ∧
      (∀ i r, s.set i = some r →
        r.lease = none ∨ r.report = none ∨ (∃ x, r.report = some x ∧ x.engine ≠ .running) ∨
          (r.state.name ≠ .warming ∧ r.state.name ≠ .online ∧ r.state.name ≠ .cooling) → t.set i = some r) ∧
      (∀ i, s.set i = none → t.set i = none) ∧
      { t with tenths := s.tenths, sets := s.sets } = s

/-! ## Access windows (03) -/

/-- R32, R33, R35, R36, R37: what a window matches; the governing window is the lowest that matches; denial, mode and
tag are the governing window's, and with none the account is permitted with mode THROUGH and tag 0. -/
def Obligations.LowestMatchingWindowGoverns : Prop :=
  (∀ (w : AccountWindow) (r : Role) (a : Nat), a < 1024 →
      (w.matches r a = true ↔
        w.enabled = true ∧
          (r = .crew ∧ w.crew = true ∨ r = .office ∧ w.office = true ∨ r = .engine ∧ w.engine = true) ∧
          ∀ i < 10, w.mask.getLsbD i = false → a.testBit i = w.base.getLsbD i)) ∧
    (∀ (w : SetWindow) (r : Role) (a : Nat), a < 12 →
      (w.matches r a = true ↔
        w.enabled = true ∧
          (r = .crew ∧ w.crew = true ∨ r = .office ∧ w.office = true ∨ r = .auto ∧ w.auto = true) ∧
          ∀ i < 4, w.mask.getLsbD i = false → a.testBit i = w.base.getLsbD i)) ∧
    (∀ (ws : Windows) (r : Role) (a k : Nat) (w : AccountWindow),
      ws.governing r a = some (k, w) ↔
        ws.account.get k = some w ∧ w.matches r a = true ∧
          ∀ j < k, ∀ v, ws.account.get j = some v → v.matches r a = false) ∧
    (∀ (ws : Windows) (r : Role) (a : Nat),
      ws.governing r a = none ↔ ∀ k w, ws.account.get k = some w → w.matches r a = false) ∧
    (∀ (ws : Windows) (r : Role) (a k : Nat) (w : SetWindow),
      ws.governingSet r a = some (k + 4, w) ↔
        ws.sets.get k = some w ∧ w.matches r a = true ∧ ∀ j < k, ∀ v, ws.sets.get j = some v → v.matches r a = false) ∧
    (∀ (ws : Windows) (r : Role) (a k : Nat),
      ws.denies r a = some k ↔ ∃ w, ws.governing r a = some (k, w) ∧ w.deny = true) ∧
    (∀ (ws : Windows) (r : Role) (a k : Nat),
      ws.deniesSet r a = some k ↔ ∃ w, ws.governingSet r a = some (k, w) ∧ w.deny = true) ∧
    (∀ (ws : Windows) (a : Nat), ws.governing .engine a = none → ws.mode a = .through ∧ ws.tag a = 0) ∧
    ∀ (ws : Windows) (a k : Nat) (w : AccountWindow), ws.governing .engine a = some (k, w) →
      ws.mode a = w.mode ∧ ws.tag a = w.tag

/-- R40, R41: WRITE WINDOW: its fields are checked in order; accepted, it replaces the window's fields whole. A set
window is answered at once; an account window's write-back joins the work list and holds DONE. R43: READ WINDOW, on
either port, carries the window's number and fields and changes nothing else. -/
def Obligations.WindowsAreWrittenAndRead : Prop :=
  (∀ (s : State) (tag : Byte) (k enabled base mask roles deny mode mark_ : Nat),
      k < 256 → enabled < 256 → base < 65536 → mask < 65536 → roles < 256 → deny < 256 → mode < 256 → mark_ < 256 →
      let payload :=
        be 1 k ++ be 1 enabled ++ be 2 base ++ be 2 mask ++ be 1 roles ++ be 1 deny ++ be 1 mode ++ be 1 mark_
      Offered s .office 0x18 tag payload →
        let t := s.judged .office
        FirstDecides
          [(decide (5 < k), .refused .range 1 0xFF),
            (decide (1 < enabled), .refused .range 2 0xFF),
            (decide ((if k < 4 then 1023 else 11) < base), .refused .range 3 0xFF),
            (decide ((if k < 4 then 1023 else 15) < mask), .refused .range 4 0xFF),
            (decide (7 < roles), .refused .range 5 0xFF),
            (decide (1 < deny), .refused .range 6 0xFF),
            (decide ((if k < 4 then 2 else 0) < mode), .refused .range 7 0xFF),
            (decide ((if k < 4 then 3 else 0) < mark_), .refused .range 8 0xFF)]
          (fun r => exec (.writeWindow .office) s = .next (t.replied .office r))
          ((k < 4 →
              exec (.writeWindow .office) s =
                .next ({ t with
                  windows := { s.windows with
                    account := s.windows.account.set k
                      ⟨enabled == 1, BitVec.ofNat 10 base, BitVec.ofNat 10 mask, roles.testBit 0, roles.testBit 1,
                        roles.testBit 2, deny == 1, if mode = 0 then .held else if mode = 1 then .through else .direct,
                        BitVec.ofNat 2 mark_⟩ }
                  tally := { s.tally with work := s.tally.work ++ [.windowWriteBack .writeBack 0] } } : State).transmit) ∧
            (4 ≤ k →
              exec (.writeWindow .office) s =
                .next (({ t with
                  windows := { s.windows with
                    sets := s.windows.sets.set (k - 4)
                      ⟨enabled == 1, BitVec.ofNat 4 base, BitVec.ofNat 4 mask, roles.testBit 0, roles.testBit 1,
                        roles.testBit 2, deny == 1⟩ } } : State).didReply .office [])))) ∧
    ∀ (s : State) (p : Port) (tag : Byte) (k : Nat), k < 256 → Offered s p 0x19 tag (be 1 k) →
      let t := s.judged p
      (5 < k → exec (.readWindow p) s = .next (t.replied p (.refused .range 1 0xFF))) ∧
        (∀ w, k < 4 → s.windows.account.get k = some w →
          exec (.readWindow p) s =
            .next (t.didReply p
              (be 1 k ++ be 1 (flag w.enabled) ++ be 2 w.base.toNat ++ be 2 w.mask.toNat ++
                be 1 (flag w.crew + 2 * flag w.office + 4 * flag w.engine) ++ be 1 (flag w.deny) ++
                be 1 (match w.mode with | .held => 0 | .through => 1 | .direct => 2) ++ be 1 w.tag.toNat))) ∧
        ∀ w, 4 ≤ k → s.windows.sets.get (k - 4) = some w →
          exec (.readWindow p) s =
            .next (t.didReply p
              (be 1 k ++ be 1 (flag w.enabled) ++ be 2 w.base.toNat ++ be 2 w.mask.toNat ++
                be 1 (flag w.crew + 2 * flag w.office + 4 * flag w.auto) ++ be 1 (flag w.deny) ++ be 1 0 ++ be 1 0))

/-- R42: a step of the window write-back, where it is the operation performed next, visits one line: the first pass writes a dirty line's record and leaves the
line clean; the second makes a line invalid whose account's mode is DIRECT; after line 63 of the second, DONE. -/
def Obligations.WindowWriteBackVisitsALine : Prop :=
  ∀ (s : State) (n : Nat) (rest : List WorkOp), n ≤ 63 →
    let u : State := { s with tally := { s.tally with work := rest } }
    (Performs s.tally.work (.windowWriteBack .writeBack n) rest →
        let after := if n < 63 then WorkOp.windowWriteBack .writeBack (n + 1) else .windowWriteBack .invalidate 0
        (∀ a r, s.tally.lines.get n = some (some ⟨true, a, r⟩) →
            exec .windowWriteBackStep s =
              .next (((u.writeRecord a r).setLine n (some ⟨false, a, r⟩)).requeue after).transmit) ∧
          ((∀ l, s.tally.lines.get n = some (some l) → l.dirty = false) →
            exec .windowWriteBackStep s = .next (u.requeue after).transmit)) ∧
      (Performs s.tally.work (.windowWriteBack .invalidate n) rest →
        ∀ v : State,
          ((∃ l, s.tally.lines.get n = some (some l) ∧ s.windows.mode l.account = .direct) ∧ v = u.setLine n none) ∨
            ((∀ l, s.tally.lines.get n = some (some l) → s.windows.mode l.account ≠ .direct) ∧ v = u) →
          (n < 63 →
              exec .windowWriteBackStep s = .next (v.requeue (.windowWriteBack .invalidate (n + 1))).transmit) ∧
            (n = 63 → exec .windowWriteBackStep s = .next (v.didReply .office [])))

/-! ## Yard line (04) -/

/-- R46, R47: a frame on the line is read back: whatever noise and idle-fill marks come before it, its destination,
source, kind and payload of up to 48 bytes are what was sent. Bodies of 1 to 53 bytes are judged by their length and
check; a 54th body byte, an abort and a framing error end the frame. R51: which payloads are valid status reports of a
class, and what they say. -/
def Obligations.LineFramesAndReportsAreReadBack : Prop :=
  ((∀ (noise : List Byte) (fill : Nat) (destination source kind : Byte) (payload : List Byte),
        (∀ b ∈ noise, b ≠ 0xB6) → payload.length ≤ 48 →
          endingOf (.bytes (noise ++ List.replicate fill 0xB6 ++ lineFrame destination source kind payload)) =
            some (.good destination source kind payload)) ∧
      (∀ body : List Byte, 1 ≤ body.length → body.length ≤ 53 →
        (body.length < 5 → endingOf (.bytes (0xB6 :: escaped body ++ [0xB6])) = some .bad) ∧
          (∀ head check : List Byte, body = head ++ check → check.length = 2 → 3 ≤ head.length → checkBytes head ≠ check →
            endingOf (.bytes (0xB6 :: escaped body ++ [0xB6])) = some .bad) ∧
          endingOf (.bytes (0xB6 :: escaped body ++ [0xB5, 0xB6])) = some .aborted ∧
          endingOf (.framingError (0xB6 :: escaped body)) = some .bad) ∧
      ∀ body : List Byte, body.length = 54 → endingOf (.bytes (0xB6 :: escaped body)) = some .overlong) ∧
    (∀ (c : StationClass) (now : Stamp) (bs : List Byte),
        bs.length ≠ (match c with | .set => 10 | .bowser => 5 | .board => 3 | .meter => 32) → reportOf c now bs = none) ∧
      (∀ (now : Stamp) (engine alarm : Byte) (level energy power : Nat), level < 65536 → energy < 4294967296 → power < 65536 →
        reportOf .set now (engine :: alarm :: (be 2 level ++ be 4 energy ++ be 2 power)) =
          (match engine.toNat with
            | 0 => some Engine.off
            | 1 => some .cranking
            | 2 => some .running
            | 3 => some .shutdown
            | _ => none).map fun e => .set ⟨e, alarm, level, BitVec.ofNat 32 energy, power, now⟩) ∧
      (∀ (now : Stamp) (pump : Byte) (count : Nat), count < 4294967296 →
        reportOf .bowser now (pump :: be 4 count) =
          if pump.toNat < 2 then some (.bowser ⟨pump.toNat == 1, BitVec.ofNat 32 count⟩) else none) ∧
      (∀ (now : Stamp) (inputs : Byte) (demand : Nat), demand < 65536 →
        reportOf .board now (inputs :: be 2 demand) =
          if inputs.toNat < 16 then
            some (.board ⟨inputs.getLsbD 0, inputs.getLsbD 1, inputs.getLsbD 2, inputs.getLsbD 3, demand⟩)
          else none) ∧
      ∀ (now : Stamp) (counters : List Word32), counters.length = 8 →
        reportOf .meter now (counters.flatMap fun x => be 4 x.toNat) = some (.meter counters)

/-- R53: ENROL STATION: its checks in order; accepted, the lowest free entry becomes used and the owner block is told.
R55: READ STATION, on either port: a used address gives the entry, address 0 the summary of the line; that a number of
waiting members above 255 is sent as its low 8 bits is the model's choice (log entry 38). The codes of the classes. -/
def Obligations.StationsAreEnrolledAndRead : Prop :=
  (∀ c : StationClass, c.value = match c with | .set => 0 | .bowser => 1 | .board => 2 | .meter => 3) ∧
  (∀ (s : State) (tag : Byte) (a c o k : Nat), a < 256 → c < 256 → o < 256 → k < 256 →
      Offered s .yard 0x20 tag (be 1 a ++ be 1 c ++ be 1 o ++ be 1 k) →
        let t := s.judged .yard
        let usedBy := fun p : Station → Bool => s.line.stations.cells.any fun e => e.any p
        FirstDecides
          [(decide (a = 0 ∨ 62 < a), .refused .range 1 0xFF),
            (decide (3 < c), .refused .range 2 0xFF),
            (decide ((if c = 1 then 2 else if c = 2 then 7 else 11) < o), .refused .range 3 0xFF),
            (decide (if c = 3 then 7 < k else k ≠ 0), .refused .range 4 0xFF),
            (usedBy fun st => st.address == a, .refused .conflict 1 0xFF),
            (usedBy fun st => st.cls.value == c && st.object == o, .refused .conflict 3 0xFF),
            (decide (c = 3) && (s.stage k).any fun x => x.isChanging, .refused .state 4 0xFF),
            (s.line.stations.cells.all fun e => e.isSome, .refused .full 0 0xFF)]
          (fun r => exec (.enrolStation .yard) s = .next (t.replied .yard r))
          (∃ e cls, classOf c = some cls ∧ s.line.stations.get e = some none ∧
            (∀ j < e, ∃ st, s.line.stations.get j = some (some st)) ∧
            let line := { s.line with stations := s.line.stations.set e (some ⟨a, cls, o, k, .unknown, 0, none, none⟩) }
            exec (.enrolStation .yard) s =
              .next ((match cls with
                | .set => ({ t with line := line, sets := s.sets.set o (some .fresh) } : State)
                | .bowser => { t with line := line }
                | .board => { t with line := line }
                | .meter => ({ t with line := line } : State).unreadStation o (some k)).finish.didReply .yard (be 1 e)))) ∧
    ∀ (s : State) (p : Port) (tag : Byte) (a : Nat), a < 256 → Offered s p 0x22 tag (be 1 a) →
      let t := s.judged p
      (62 < a → exec (.readStation p) s = .next (t.replied p (.refused .range 1 0xFF))) ∧
        (1 ≤ a → a ≤ 62 → (∀ st, some st ∈ s.line.stations.cells → st.address ≠ a) →
          exec (.readStation p) s = .next (t.replied p (.refused .absent 1 0xFF))) ∧
        (∀ e st, 1 ≤ a → a ≤ 62 → s.line.stations.get e = some (some st) → st.address = a →
          (∀ j < e, ∀ x, s.line.stations.get j = some (some x) → x.address ≠ a) →
          exec (.readStation p) s =
            .next (t.didReply p
              (be 1 e ++ be 1 a ++ be 1 st.cls.value ++ be 1 st.object ++ be 1 st.stage ++
                be 1 (match st.state with | .unknown => 0 | .answering => 1 | .lost => 2) ++ be 1 st.run ++
                (match st.lastGood with
                  | some x => be 1 1 ++ be 1 x.day ++ be 3 x.second
                  | none => be 1 0 ++ be 1 0 ++ be 3 0) ++
                be 1 (match st.lastFault with
                  | none => 0
                  | some .silent => 1
                  | some .badCheck => 2
                  | some .wrongSource => 3
                  | some .tooLong => 4
                  | some .aborted => 5
                  | some .nak => 6) ++
                be 1 (s.line.queue.filter fun c => c.isFor st.cls st.object).length))) ∧
        (a = 0 →
          exec (.readStation p) s =
            .next (t.didReply p
              (be 1 (flag s.line.jammed) ++ be 1 (s.line.stations.cells.filter fun e => e.isSome).length ++
                be 1 s.line.queue.length ++ be 1 (s.line.queue.filter fun c => c.rank == .safety).length ++
                be 1 s.line.waiting.length ++ be 1 s.line.sincePoll ++ be 1 s.line.round)))

/-- R54: REMOVE STATION: the checks; accepted, the station's queued commands end REMOVED, its entry is free and the owner
block's record of the object is as its chapter says (R118, R122, R145). Its transaction stays on the line and its result is
void; one chosen and not begun is dropped (log entry 12). Another station's transaction is as it was, but that one chosen
and not begun for a command that ended is dropped too. The outcomes are told oldest first. The commands of other stations
keep their places, and the waiting list is examined as `AdmitsWaiting` says: once, after all have left (the model's choice,
log entry 44). The station's waiting commands carry a mark from then on, with which `AdmitsWaiting` ends them REMOVED when
they find room, though the object be enrolled again (R54); those for a set are given up (R69). -/
def Obligations.RemoveStationFreesTheEntry : Prop :=
  ∀ (s : State) (tag : Byte) (a : Nat), a < 256 → Offered s .yard 0x21 tag (be 1 a) →
    let t := s.judged .yard
    (a = 0 ∨ 62 < a ∨ (∀ st, some st ∈ s.line.stations.cells → st.address ≠ a) →
        exec (.removeStation .yard) s = .next (t.replied .yard (.refused .absent 1 0xFF))) ∧
      ∀ (e : Nat) (st : Station), 1 ≤ a → a ≤ 62 → s.line.stations.get e = some (some st) → st.address = a →
        (∀ j < e, ∀ x, s.line.stations.get j = some (some x) → x.address ≠ a) →
        let inUse :=
          (st.cls = .set ∧ ((∃ r l, s.set st.object = some r ∧ r.lease = some l) ∨
              ∃ k ∈ s.stages.cells, k.inputA = some st.object ∨ k.inputB = some st.object)) ∨
            (st.cls = .bowser ∧ ∃ x, s.channel st.object = some x ∧ x.state ≠ .idle) ∨
            (st.cls = .board ∧ ∃ x q, s.stage st.object = some x ∧ x.state = .changing q)
        (inUse → exec (.removeStation .yard) s = .next (t.replied .yard (.refused .state 1 0xFF))) ∧
          (¬inUse → ∃ u : State, exec (.removeStation .yard) s = .next (u.finish.didReply .yard []) ∧
            u.line.stations = s.line.stations.set e none ∧
            (∃ v w : State, AdmitsWaiting v w ∧
              v.line.stations = s.line.stations.set e none ∧
              v.line.queue = (s.line.queue.filter fun c => !c.isFor st.cls st.object) ∧
              v.line.waiting =
                (s.line.waiting.map fun c => if c.isFor st.cls st.object = true then { c with removed := true } else c) ∧
              v.told =
                s.told ++ (s.line.queue.filter fun c => c.isFor st.cls st.object).map (fun c => .outcome c .removed) ∧
              u.line.queue = w.line.queue ∧
              u.line.waiting =
                (if st.cls = .set then w.line.waiting.filter fun c => !c.isFor .set st.object else w.line.waiting) ∧
              u.told = w.told) ∧
            (∀ x, u.line.current = some x → x.cls = st.cls → x.object = st.object → x.void = true ∧ x.phase ≠ .chosen) ∧
            (s.line.current = none → u.line.current = none) ∧
            (∀ x, s.line.current = some x →
              (x.cls = st.cls → x.object = st.object →
                  (x.phase ≠ .chosen → u.line.current = some { x with void := true }) ∧
                    (x.phase = .chosen → u.line.current = none)) ∧
                (x.cls ≠ st.cls ∨ x.object ≠ st.object →
                  x.phase ≠ .chosen ∨
                      (∀ n o, x.job = .command n o →
                        ∀ c ∈ s.line.queue, c.isFor st.cls st.object = true → c.serial ≠ n) →
                    u.line.current = some x)) ∧
            u.sets = (if st.cls = .set then s.sets.set st.object none else s.sets) ∧
            (st.cls = .bowser → ∀ x, s.channel st.object = some x → u.channel st.object = some { x with report := none }) ∧
            (st.cls = .board → ∀ x, s.stage st.object = some x →
              u.stage st.object =
                some { x with report := none, lost := false, state := .unknown, lossEpisode := false }) ∧
            (st.cls = .meter → ∀ c r, c / 8 = st.object → s.circuit c = some r →
              u.circuit c = some { Circuit.reset with stage := r.stage }) ∧
            u.clock = s.clock ∧ u.windows = s.windows ∧ u.tally = s.tally ∧ u.period = s.period ∧
            u.planMem = s.planMem ∧ u.tallyMem = s.tallyMem)

/-- R56 to R59: where an offered command goes: it ends at once where its object has no station or a LOST one; it
enters the queue where there is room; else it joins the waiting list. Withdrawal: an uncommitted command goes, a
committed one stays, and a transaction chosen for the withdrawn one and not begun is chosen no more. When an entry has
left, the waiting list is examined as `AdmitsWaiting` says: each member enters where it finds room, or ends, its outcome
told, where its station was removed while it waited (R54), is gone or is LOST, or waits on. That it is judged when it finds
room, and that one whose station was LOST in between is judged by the station table of that moment, is the model's reading
(log entries 15 and 41). -/
def Obligations.CommandsAreOffered : Prop :=
  (∀ (l : Line) (r : Rank),
      l.hasRoom r = true ↔
        l.queue.length < 8 ∧ (r = .safety ∨ (l.queue.filter fun c => c.rank != .safety).length < 6)) ∧
    (∀ (l : Line) (r : Rank),
      l.consoleRoom r = true ↔ l.hasRoom r = true ∧ ∀ c ∈ l.waiting, ¬(c.rank = .safety ↔ r = .safety)) ∧
    (∀ (s : State) (o : Order) (object : Nat) (r : Rank),
      let c : Command := ⟨s.line.nextSerial, o, object, r, 0, false, false⟩
      let u : State := { s with line := { s.line with nextSerial := s.line.nextSerial + 1 } }
      (s.line.station o.cls object = none → s.offer o object r = u.tell (.outcome c .removed)) ∧
        ∀ st, s.line.station o.cls object = some st →
          (st.state = .lost → s.offer o object r = u.tell (.outcome c .noAnswer)) ∧
            (st.state ≠ .lost → s.line.hasRoom r = true →
              s.offer o object r = { u with line := { u.line with queue := s.line.queue ++ [c] } }) ∧
            (st.state ≠ .lost → s.line.hasRoom r = false →
              s.offer o object r = { u with line := { u.line with waiting := s.line.waiting ++ [c] } })) ∧
    (∀ s : State, AdmitsWaiting s s.admitWaiting) ∧
    (∀ (s : State) (n : Nat), (∃ c ∈ s.line.waiting, c.serial = n) →
      s.recall n = { s with line := { s.line with waiting := s.line.waiting.filter fun c => c.serial != n } }) ∧
    (∀ (s : State) (n : Nat) (c : Command), (∀ x ∈ s.line.waiting, x.serial ≠ n) → s.line.queued n = some c →
      (c.committed = true → s.recall n = s) ∧
        (c.committed = false →
          ∃ l : Line,
            l = { s.line with queue := s.line.queue.filter fun x => x.serial != n, current := l.current } ∧
              ((∃ t o, s.line.current = some t ∧ t.phase = .chosen ∧ t.job = .command n o) → l.current = none) ∧
              ((∀ t o, s.line.current = some t → t.phase = .chosen → t.job ≠ .command n o) →
                l.current = s.line.current) ∧
              AdmitsWaiting { s with line := l } (s.recall n))) ∧
    ∀ (s : State) (n : Nat), (∀ x ∈ s.line.waiting, x.serial ≠ n) → s.line.queued n = none → s.recall n = s

/-- R60, R61: the choice of the next transaction at the end of a step, and what begins on a quiet line. While the part
is LOADING, the line JAMMED or a transaction chosen or on the line, none is chosen. A command is taken while fewer
than 3 have run since the last poll, the highest class first and the oldest in it; else the next eligible station is
polled, round by round; after a poll of entry 39 the round has ended. The end of a step is this choice, made once what
the blocks have told each other has been acted on: the message told first is taken, its block acts on it, and so on
(logs 9 and 10); a command's outcome goes to the block that offered it (R59). R45, R48, R49: 2 ms of quiet: the line is quiet, the jam timer returns to 0, and what is chosen
begins; the closing mark of the part's frame is out: the transaction listens, the receiver hunting. That the choice falls
at the end of a step, and the times of the line, are the model's reading (log entries 4, 11, 12); so is that the closing
mark with nothing sending changes nothing (log entry 2). -/
def Obligations.LineChoosesListensAndGoesQuiet : Prop :=
  ((∀ s : State, s.told = [] → s.finish = s.arbitrate) ∧
      (∀ s : State, s.finish = (State.settle 4096 s).arbitrate) ∧
      (∀ s : State, State.settle 0 s = s) ∧
      (∀ (n : Nat) (s : State), s.told = [] → State.settle n s = s) ∧
      (∀ (n : Nat) (s : State) (m : Told) (rest : List Told), s.told = m :: rest →
        let u : State := { s with told := rest }
        State.settle (n + 1) s =
          State.settle n
            (match m with
              | .setChanged i => u.setChanged i
              | .fuelLowRaised i except => u.fuelLowRaised i except
              | .fuelLowCleared i => u.fuelLowCleared i
              | .judgeSupply k => u.judgeSupply k
              | .boundaryCheck k => u.boundaryCheck k
              | .boundaryEnded r => u.boundaryEnded r
              | .bill src => u.continueSource src
              | .outcome c o =>
                match c.order with
                | .startEngine => u.engineOutcome c o
                | .stopEngine => u.engineOutcome c o
                | .clearShutdown => u.engineOutcome c o
                | .pumpRun => u.pumpOutcome c o
                | .pumpHalt => u.pumpOutcome c o
                | .openInput _ => u.boardOutcome c o
                | .closeInput _ => u.boardOutcome c o
                | .readCounters => u.countersOutcome c o)) ∧
      (∀ s : State, s.loader.ready = false ∨ s.line.jammed = true ∨ s.line.current ≠ none →
        s.arbitrate = { s with line := s.line.beginChosen }) ∧
      (∀ s : State, s.loader.ready = true → s.line.jammed = false → s.line.current = none →
        (∀ c st, s.line.sincePoll < 3 ∨ s.line.choosePoll = none → s.line.pick = some c →
            s.line.station c.order.cls c.object = some st →
            s.arbitrate =
              { s with
                line := ({ s.line with
                  current := some ⟨.command c.serial c.order, st.cls, st.object, st.address, .chosen, false⟩ } :
                  Line).beginChosen }) ∧
          (∀ l, 3 ≤ s.line.sincePoll ∨ s.line.queue = [] → s.line.choosePoll = some l →
            s.arbitrate = { s with line := l.beginChosen }) ∧
          (s.line.queue = [] → s.line.choosePoll = none → s.arbitrate = s)) ∧
      (∀ (l : Line) (c : Command),
        l.pick = some c ↔ ∃ before after, l.queue = before ++ c :: after ∧ (∀ x ∈ before, x.rank ≠ c.rank) ∧
          ∀ x ∈ l.queue, (c.rank = .sequence → x.rank ≠ .safety) ∧ (c.rank = .routine → x.rank = .routine)) ∧
      (∀ (l : Line) (e : Nat) (st : Station), l.pointer ≤ e → l.stations.get e = some (some st) →
        (st.state ≠ .lost ∨ l.round = 7) →
        (∀ j x, l.pointer ≤ j → j < e → l.stations.get j = some (some x) → x.state = .lost ∧ l.round ≠ 7) →
          l.choosePoll =
            some { l with
              pointer := if e = 39 then 0 else e + 1
              round := if e = 39 then (l.round + 1) % 8 else l.round
              current := some ⟨.poll, st.cls, st.object, st.address, .chosen, false⟩ }) ∧
      (∀ l : Line, l.round < 8 → l.pointer ≤ 40 →
        (∀ j x, l.pointer ≤ j → l.stations.get j = some (some x) → x.state = .lost ∧ l.round ≠ 7) →
          l.choosePoll = ({ l with pointer := 0, round := (l.round + 1) % 8 } : Line).choosePoll) ∧
      (∀ l : Line, (∀ e ∈ l.stations.cells, e = none) → l.choosePoll = none) ∧
      ∀ (l : Line) (t : Transaction), l.current = some t →
        (t.phase ≠ .chosen ∨ l.busy = true → l.beginChosen = l) ∧
          (t.phase = .chosen → l.busy = false →
            (t.job = .poll → l.beginChosen = { l with current := some { t with phase := .sending }, sincePoll := 0 }) ∧
              ∀ n o, t.job = .command n o →
                l.beginChosen =
                  { l with
                    current := some { t with phase := .sending }
                    sincePoll := min (l.sincePoll + 1) 3
                    queue := l.queue.map fun c => if c.serial = n then { c with committed := true } else c })) ∧
    (∀ s : State,
        exec .lineQuiet s =
          .next ({ s with
            line := { s.line with
              jamTimer := 0, busy := false,
              quietTimer := if s.line.jammed then 2 else s.line.quietTimer } } : State).finish.transmit) ∧
      (∀ (s : State) (t : Transaction), s.line.current = some t → t.phase = .sending →
        exec .closingMarkSent s =
          .next ({ s with
            line := { s.line with current := some { t with phase := .listening }, rx := .hunting } } : State).transmit) ∧
      (∀ s : State, (∀ t, s.line.current = some t → t.phase ≠ .sending) → exec .closingMarkSent s = .next s.transmit) ∧
      ∀ t : Transaction,
        t.bytes =
          lineFrame (BitVec.ofNat 8 t.address) 0
            (match t.job with
              | .poll => 0x01
              | .command _ .startEngine => 0x10
              | .command _ .stopEngine => 0x11
              | .command _ .clearShutdown => 0x12
              | .command _ .pumpRun => 0x18
              | .command _ .pumpHalt => 0x19
              | .command _ (.openInput .a) => 0x20
              | .command _ (.openInput .b) => 0x21
              | .command _ (.closeInput .a) => 0x22
              | .command _ (.closeInput .b) => 0x23
              | .command _ .readCounters => 0x28) []

/-- R49, R62: an accepted reply of a listening transaction: the run returns to 0, the stamp is kept, the station is
ANSWERING, STATION BACK is posted where it was LOST, the report goes to its owner, and a command ends DONE. A removed
station's reply is discarded (R54). What the blocks tell each other is acted on in the order told (log entry 9).
What the owner does with the report: R70: a SET report reaches the Set monitor, then, with the energy it showed, the
Delivery unit (R101): energy during delivery, the HIGH mark, the return of a lost gauge, the resume at HIGH CLEAR. R100,
R103: a BOWSER report, by the state of its channel; one that itself takes the channel to SETTLING from ARMED or FLOWING is
not also judged for a running pump (the model's reading, log entry 30). R120, R129: a BOARD report is kept and clears the
loss; it resynchronizes the stage, or is judged by the step of the changeover. R144: a METER report reaches its
circuits. -/
def Obligations.AcceptedReplyEndsTheTransaction : Prop :=
  (∀ (s : State) (t : Transaction) (raw payload : List Byte) (r : Report),
    s.line.current = some t → t.phase = .listening →
    endingOf (.bytes raw) =
      some (.good 0 (BitVec.ofNat 8 t.address) (match t.job with | .poll => 0x81 | .command _ _ => 0x82) payload) →
    reportOf t.cls s.now payload = some r →
      let heard : Line := { s.line.heardGood with current := none }
      (t.void = true → exec (.replyAccepted raw) s = .next ({ s with line := heard } : State).finish.transmit) ∧
        ∀ st, t.void = false → s.line.station t.cls t.object = some st →
          let answered : State :=
            { s with
              line := heard.changeStation t.cls t.object fun x =>
                { x with run := 0, lastGood := some s.now, state := .answering } }
          let back :=
            if st.state = .lost then
              answered.post .stationBack (be 1 st.address ++ be 1 st.cls.value ++ be 1 st.object)
            else answered
          exec (.replyAccepted raw) s =
            .next (match t.job with
              | .poll => back.handReport t.object r
              | .command n _ =>
                (back.handReport t.object r).endCommands (fun c => c.serial == n) .done).finish.transmit) ∧
    (∀ (s : State) (i : Nat) (x : SetReport),
      s.handReport i (.set x) =
        (s.applySetReport i x).deliverySetReport i x
          (match s.set i with
            | some r => (match r.report with | some y => some (x.energy - y.energy) | none => none)
            | none => none)) ∧
    (∀ (s : State) (m : Nat) (counters : List Word32),
      s.handReport m (.meter counters) = s.applyMeterReport m counters) ∧
    (∀ (s : State) (i : Nat) (x : SetReport) (delta : Option Word32),
      ((∀ j y d, s.channel j = some y → y.open_ = some d → d.set ≠ i) → s.deliverySetReport i x delta = s) ∧
        ∀ c y d, OpenTo s i c y d →
          let e : Delivery :=
            { d with
              energy :=
                BitVec.ofNat 32 (min (d.energy.toNat + (match delta with | some n => n.toNat | none => 0)) 4294967295) }
          let u := fun q : ChannelState =>
            ({ s with
              deliveries := { s.deliveries with channels := s.deliveries.channels.set c { y with state := q } } } : State)
          let v := u (.flowing e)
          (y.state = .armed d → s.deliverySetReport i x delta = u (.armed e)) ∧
            (y.state = .flowing d → x.level < (s.marksOf i).high → s.deliverySetReport i x delta = v) ∧
            (y.state = .flowing d → (s.marksOf i).high ≤ x.level →
              ∃ g, (v.stopPump c).delivery c = some g ∧
                s.deliverySetReport i x delta =
                  (v.stopPump c).haltChannel c { g with highHalts := BitVec.ofNat 8 (min (g.highHalts.toNat + 1) 255) }
                    .highMark) ∧
            (y.state = .halted d .hold → s.deliverySetReport i x delta = u (.halted e .hold)) ∧
            (y.state = .halted d .highMark ∨ y.state = .halted d .gaugeLost →
              s.deliverySetReport i x delta = (u (.halted e .highMark)).judgeResume c e) ∧
            ∀ n, y.state = .settling d n → s.deliverySetReport i x delta = u (.settling e n)) ∧
    (∀ (s : State) (c : Nat) (d : Delivery),
      s.judgeResume c d =
        if s.levelOf d.set ≤ (s.marksOf d.set).highClear ∧ d.haltConfirmed = true ∧ s.haltOutstanding c = false then
          (s.setChannel c (.flowing d)).runPump c
        else s) ∧
    (∀ (s : State) (c : Nat) (y : Channel) (x : BowserReport), s.channel c = some y →
      let counted := fun d : Delivery => { d with delivered := x.count - d.meterStart }
      let full := fun d : Delivery => d.ordered ≤ (x.count - d.meterStart).toNat
      let u := fun q : ChannelState =>
        ({ s with
          deliveries := { s.deliveries with
            channels := s.deliveries.channels.set c { y with report := some x, state := q } } } : State)
      let watched := fun v : State =>
        if x.running = true ∧ ∀ k ∈ s.line.queue ++ s.line.waiting, k.isPump .pumpRun c = false then
          (v.changeDelivery c fun d => { d with haltConfirmed := false }).stopPump c
        else v
      (y.state = .idle ∨ (∃ r n, y.state = .heldLog r n) → s.handReport c (.bowser x) = u y.state) ∧
        (∀ d, y.state = .armed d → x.count = d.meterStart → s.handReport c (.bowser x) = u (.armed (counted d))) ∧
        (∀ d, (y.state = .armed d ∧ x.count ≠ d.meterStart) ∨ y.state = .flowing d →
          let v := u (.flowing (counted d))
          (¬full d → s.handReport c (.bowser x) = v) ∧
            (full d →
              ∃ g, (v.stopPump c).delivery c = some g ∧
                s.handReport c (.bowser x) = (v.stopPump c).setChannel c (.settling g 600))) ∧
        (∀ d q, y.state = .halted d q →
          (full d → s.handReport c (.bowser x) = watched (u (.settling (counted d) 600))) ∧
            (¬full d → s.handReport c (.bowser x) = watched (u (.halted (counted d) q)))) ∧
        ∀ d n, y.state = .settling d n →
          s.handReport c (.bowser x) = watched (u (.settling (if d.meterLost then d else counted d) n))) ∧
    ∀ (s : State) (k : Nat) (y : Stage) (x : BoardReport), s.stage k = some y →
      let u : State := { s with stages := s.stages.set k { y with report := some x, lost := false } }
      let shown : StageState :=
        match x.closedA, x.closedB with
        | true, false => .fed .a
        | false, true => .fed .b
        | false, false => .dark
        | true, true => .conflict
      ((∀ c, y.state ≠ .changing c) → s.handReport k (.board x) = (u.enterStage k shown).judgeSupply k) ∧
        ∀ c, y.state = .changing c →
          let back : StageState := match c.source with | some i => .fed i | none => .dark
          s.handReport k (.board x) =
            match boardVerdict c.step (c.kind == .restore) (c.board != .none) (positionOf c.target x.closedA x.closedB) with
            | .expected => u
            | .held => u
            | .overridden => u.endChangeover k c .overridden shown
            | .toDead => (match c.board with | .offered n => u.recall n | _ => u).enterDead k
            | .interlockFree => u.tryClose k
            | .success =>
              match c.step with
              | .closing => u.endChangeover k c .done (.fed c.target)
              | .reverting => u.endChangeover k c (if c.aborted then .abortedReversed else .reverted) back
              | _ => u

/-- R50, R63, R64: a failed transaction. The verdict on each frame end; SILENT, TOO LONG and the other kinds end the
transaction and reach the station: the fault kind is kept, the run and the command's attempts rise, the sixth failure
in a run loses the station, the third attempt ends the command NO ANSWER. A LOST station takes the fault kind alone.
The queued commands of a lost station end, and the waiting ones of a bowser too (R109; those of other classes wait on,
log entry 15, and may enter where the station is back by the time they find room, log entry 41).
Commands that end leave the queue, their outcomes are told oldest first, and waiting members are
examined, once where several end (the model's choice, log entry 44). The times of the line are told by the command (log entry 4). What the owner does when the station is lost: R83
for a set, with R108 for the delivery to it; R109 for a bowser; R122, R130, R131 for a board; nothing for a meter
(R144). R54: a failure of any kind of a removed station's transaction ends it on the line and is discarded. R55: the codes
of the fault kinds. -/
def Obligations.FailedTransactionCounts : Prop :=
  (∀ f : LineFault,
      f.value =
        match f with
        | .silent => 1
        | .badCheck => 2
        | .wrongSource => 3
        | .tooLong => 4
        | .aborted => 5
        | .nak => 6) ∧
    (∀ (t : Transaction) (now : Stamp) (destination source kind : Byte) (payload : List Byte),
      t.verdict now .bad = .failed .badCheck ∧ t.verdict now .aborted = .failed .aborted ∧
        t.verdict now .overlong = .failed .tooLong ∧
        (destination ≠ 0 ∨ source ≠ BitVec.ofNat 8 t.address →
          t.verdict now (.good destination source kind payload) = .failed .wrongSource) ∧
        (destination = 0 → source = BitVec.ofNat 8 t.address →
          kind ≠ (match t.job with | .poll => 0x81#8 | .command _ _ => 0x82#8) ∨ reportOf t.cls now payload = none →
            t.verdict now (.good destination source kind payload) = .failed .nak)) ∧
    (∀ (s : State) (t : Transaction) (st : Station), s.line.current = some t → t.phase = .listening → t.void = false →
      s.line.station t.cls t.object = some st →
        (∀ a, exec (.silent a) s =
            .next (({ s with line := { s.line.heard a.busyMs a.busyNow with current := none } } : State).failStation t st
              .silent).finish.transmit ∧
          exec (.tooLong a) s =
            .next (({ s with line := { s.line.heard a.busyMs a.busyNow with current := none } } : State).failStation t st
              .tooLong).finish.transmit) ∧
          ∀ ms h e f, endingOf h = some e → t.verdict s.now e = .failed f → f ≠ .tooLong →
            exec (.transactionFault ms h) s =
              .next (({ s with line := { s.line.heardEnd ms e with current := none } } : State).failStation t st
                f).finish.transmit) ∧
    (∀ (s : State) (t : Transaction) (a : LineActivity), s.line.current = some t → t.phase = .listening → t.void = true →
      exec (.silent a) s =
          .next ({ s with line := { s.line.heard a.busyMs a.busyNow with current := none } } : State).finish.transmit ∧
        exec (.tooLong a) s =
          .next ({ s with line := { s.line.heard a.busyMs a.busyNow with current := none } } : State).finish.transmit) ∧
    (∀ (s : State) (t : Transaction) (ms : Nat) (h : LineBytes) (e : LineEnd) (f : LineFault),
      s.line.current = some t → t.phase = .listening → t.void = true → endingOf h = some e →
      t.verdict s.now e = .failed f → f ≠ .tooLong →
        exec (.transactionFault ms h) s =
          .next ({ s with line := { s.line.heardEnd ms e with current := none } } : State).finish.transmit) ∧
    (∀ (s : State) (t : Transaction) (st : Station) (f : LineFault),
      (st.state = .lost →
          s.failStation t st f =
            { s with line := s.line.changeStation t.cls t.object fun x => { x with lastFault := some f } }) ∧
        (st.state ≠ .lost → st.run < 6 →
          let counted :=
            s.line.changeStation t.cls t.object fun x => { x with lastFault := some f, run := min (st.run + 1) 6 }
          let tried : Line :=
            match t.job with
            | .poll => counted
            | .command n _ =>
              { counted with
                queue := counted.queue.map fun c => if c.serial = n then { c with attempts := c.attempts + 1 } else c }
          (∀ x, s.line.station t.cls t.object = some st → tried.station t.cls t.object = some x →
              x.run = st.run + 1 ∧ x.lastFault = some f) ∧
            (s.line.station t.cls t.object = some st → st.run + 1 = 6 →
              s.failStation t st f =
                let lost :=
                  (State.objectLost
                    (({ s with
                        line := tried.changeStation st.cls st.object fun x => { x with state := .lost } } : State).post
                      .stationLost (be 1 st.address ++ be 1 st.cls.value ++ be 1 st.object ++ be 1 f.value))
                    st.cls st.object).endCommands (fun c => c.isFor st.cls st.object) .noAnswer
                if st.cls = .bowser then lost.endWaiting (fun c => c.isFor .bowser st.object) .noAnswer else lost) ∧
            (s.line.station t.cls t.object = some st → st.run + 1 ≠ 6 →
              (t.job = .poll → s.failStation t st f = { s with line := tried }) ∧
                ∀ n o c, t.job = .command n o → tried.queued n = some c →
                  (c.attempts < 3 → s.failStation t st f = { s with line := tried }) ∧
                    (3 ≤ c.attempts →
                      s.failStation t st f =
                        ({ s with line := tried } : State).endCommands (fun c => c.serial == n) .noAnswer)))) ∧
    (∀ (s : State) (object : Nat),
      s.objectLost .set object = (s.setLost object).gaugeLost object ∧ s.objectLost .bowser object = s.meterLost object ∧
        s.objectLost .board object = s.boardLost object ∧ s.objectLost .meter object = s) ∧
    (∀ (s : State) (i : Nat),
      (s.set i = none → s.setLost i = s) ∧
        ∀ r, s.set i = some r →
          ((∃ q, r.state = .lost q) → s.setLost i = s) ∧
            ((∀ q, r.state ≠ .lost q) →
              s.setLost i =
                (({ s with
                  sets := s.sets.set i
                    (some { r with
                      state := .lost r.state.name, clearPending := false, startPending := false, timer := none,
                      awaited := none })
                  line := { s.line with waiting := s.line.waiting.filter fun c => !c.isFor .set i } } : State).post
                  .setState (be 1 i ++ be 1 7 ++ be 1 r.state.name.value ++ be 1 0)).tell (.setChanged i))) ∧
    (∀ (s : State) (i : Nat),
      ((∀ j y d, s.channel j = some y → y.open_ = some d → d.set ≠ i) → s.gaugeLost i = s) ∧
        ∀ c y d, OpenTo s i c y d →
          let e : Delivery := { d with gaugeLost := true }
          let u := fun q : ChannelState =>
            ({ s with
              deliveries := { s.deliveries with channels := s.deliveries.channels.set c { y with state := q } } } : State)
          (∀ q, (y.state = .armed d ∧ q = .armed e) ∨ (y.state = .flowing d ∧ q = .flowing e) →
              ∃ g, ((u q).stopPump c).delivery c = some g ∧
                s.gaugeLost i = ((u q).stopPump c).haltChannel c g .gaugeLost) ∧
            (y.state = .halted d .highMark → s.gaugeLost i = u (.halted e .gaugeLost)) ∧
            (∀ q, y.state = .halted d q → q ≠ .highMark → s.gaugeLost i = u (.halted e q)) ∧
            ∀ n, y.state = .settling d n → s.gaugeLost i = u (.settling e n)) ∧
    (∀ (s : State) (c : Nat) (y : Channel), s.channel c = some y →
      let u := fun q : ChannelState =>
        ({ s with
          deliveries := { s.deliveries with channels := s.deliveries.channels.set c { y with state := q } } } : State)
      (y.state = .idle ∨ (∃ r n, y.state = .heldLog r n) → s.meterLost c = s) ∧
        (∀ d, y.state = .armed d ∨ y.state = .flowing d ∨ (∃ q, y.state = .halted d q) →
          s.meterLost c = u (.settling { d with meterLost := true } 600)) ∧
        ∀ d n, y.state = .settling d n → s.meterLost c = u (.settling { d with meterLost := true } n)) ∧
    (∀ (s : State) (k : Nat) (y : Stage), s.stage k = some y →
      let u : State := { s with stages := s.stages.set k { y with lost := true } }
      (∀ c, y.state = .changing c → c.step = .preparing ∨ c.step = .boundary →
          s.boardLost k = u.endChangeover k c .boardFault (match c.source with | some i => .fed i | none => .dark)) ∧
        ((∀ c, y.state = .changing c → c.step ≠ .preparing ∧ c.step ≠ .boundary) → s.boardLost k = u)) ∧
    (∀ (s : State) (p : Command → Bool) (o : CommandOutcome),
      s.endWaiting p o =
        { s with
          line := { s.line with waiting := s.line.waiting.filter fun c => !p c }
          told := s.told ++ (s.line.waiting.filter p).map fun c => .outcome c o }) ∧
    ∀ (s : State) (p : Command → Bool) (o : CommandOutcome),
      ((∀ c ∈ s.line.queue, p c = false) → s.endCommands p o = s) ∧
        ((∃ c ∈ s.line.queue, p c = true) → ∃ chosen : Option Transaction,
          ((∃ t n x, s.line.current = some t ∧ t.phase = .chosen ∧ t.job = .command n x ∧
              ∃ c ∈ s.line.queue, p c = true ∧ c.serial = n) → chosen = none) ∧
            ((∀ t n x, s.line.current = some t → t.phase = .chosen → t.job = .command n x →
              ∀ c ∈ s.line.queue, p c = true → c.serial ≠ n) → chosen = s.line.current) ∧
            AdmitsWaiting
              { s with
                line := { s.line with queue := s.line.queue.filter fun c => !p c, current := chosen }
                told := s.told ++ (s.line.queue.filter p).map fun c => .outcome c o }
              (s.endCommands p o))

/-- R65: the line, busy, becomes JAMMED: the transaction goes, LINE JAMMED is posted; R66: it becomes CLEAR and LINE
CLEAR carries the time; R47: a good frame outside a transaction sets the jam timer to 0, another does not. The times of
the line are told by the command (log entry 4); that the jam also drops a transaction chosen and not begun is the
model's reading (log entry 12). -/
def Obligations.JammedLineAndItsEnd : Prop :=
  (∀ s : State, s.line.jammed = false → (∀ t, s.line.current = some t → t.phase ≠ .sending) →
      exec .lineJammed s =
        .next (({ s with
          line := { s.line with
            jammed := true, jamTimer := max s.line.jamTimer 201, quietTimer := 0, jammedTenths := 0, busy := true,
            current := none, rx := .hunting } } : State).post .lineJammed []).transmit) ∧
    (∀ s : State, s.line.jammed = true →
      exec .lineClear s =
        .next (({ s with
          line := { s.line with jammed := false, jamTimer := 0, quietTimer := 100, busy := false } } : State).post
            .lineClear (be 2 s.line.jammedTenths)).finish.transmit) ∧
    (∀ (s : State) (raw : List Byte) (destination source kind : Byte) (payload : List Byte),
      (∀ t, s.line.current = some t → t.phase = .chosen) →
      endingOf (.bytes raw) = some (.good destination source kind payload) →
        exec (.frameOutsideTransaction raw) s =
          .next ({ s with
            line := { s.line with
              jamTimer := 0, busy := true, rx := .hunting,
              quietTimer := if s.line.jammed then 0 else s.line.quietTimer } } : State).transmit) ∧
    ∀ (s : State) (ms : Nat) (h : LineBytes),
      (∀ t, s.line.current = some t → t.phase = .chosen) →
      endingOf h = some .bad ∨ endingOf h = some .aborted ∨ endingOf h = some .overlong →
        exec (.badFrameOutsideTransaction ms h) s =
          .next ({ s with
            line := { s.line with
              jamTimer := s.line.jamTimer + ms, busy := true, rx := .hunting,
              quietTimer := if s.line.jammed then 0 else s.line.quietTimer } } : State).transmit

/-! ## Generating sets and leases (05) -/

/-- R72 to R74, R84: a change of a set's state cancels its timer, clears its pending marks, posts SET STATE and tells
the Feed sequencer; nothing else changes. The state that a report leads to from each state. R70, R85, R87, R89 to R92:
what a SET report does to the record: its state is the one so judged, with a start or a gap counted (R72, R76); the
report is kept; burn, reference, energy and rate window are measured; fuel-low; the alarm latch. What each judgement does
beside: the commands it recalls, the timers it starts, the notices UNEXPLAINED RISE, FUEL LOW, FUEL LOW CLEAR and ALARM
CHANGE, and what the Feed sequencer is told. R84: the codes of the states and of the causes, as SET STATE sends them. -/
def Obligations.ReportsAreMeasuredAndDecideTheState : Prop :=
  ((∀ q : SetState,
        q.name.value =
            (match q with
              | .unknown => 0
              | .stopped => 1
              | .cranking _ _ => 2
              | .warming => 3
              | .online => 4
              | .cooling => 5
              | .faulted _ => 6
              | .lost _ => 7) ∧
          q.causeValue =
            match q with
            | .faulted .noStart => 1
            | .faulted .shutdown => 2
            | .faulted .stoppedLocally => 3
            | .faulted .offWhileFeeding => 4
            | .faulted .stopFailed => 5
            | _ => 0) ∧
    (∀ (s : State) (i : Nat) (r : SetRecord) (q : SetState), s.set i = some r →
        s.enterSet i q =
          (({ s with
            sets := s.sets.set i
              (some { r with
                state := q, clearPending := false, startPending := false, timer := none, awaited := none }) } : State).post
            .setState (be 1 i ++ be 1 q.name.value ++ be 1 r.state.name.value ++ be 1 q.causeValue)).tell (.setChanged i)) ∧
      ∀ (s : State) (i : Nat) (r : SetRecord) (e : Engine), s.set i = some r →
        (s.judgeEngine i r e).setStateOf i =
          some (match r.state, e with
            | .stopped, .off => .stopped
            | .stopped, .cranking => .cranking
            | .stopped, .running => .warming
            | .cranking _ .crank, .running => .warming
            | .cranking _ .rest, .running =>
              if r.timer.isSome || s.awaitsUncommitted i then .warming else .cranking
            | .cranking _ _, .off => .cranking
            | .cranking _ _, .cranking => .cranking
            | .warming, .running => .warming
            | .warming, .off => .faulted
            | .warming, .cranking => .faulted
            | .online, .running => .online
            | .online, .off => .faulted
            | .online, .cranking => .faulted
            | .cooling, .off => if r.startPending then .cranking else .stopped
            | .cooling, .cranking => .cooling
            | .cooling, .running => .cooling
            | .faulted _, _ => .faulted
            | _, .shutdown => .faulted
            | .lost .cranking, .running => if s.feeding i then .online else .warming
            | _, .running => .online
            | _, .off => if s.feeding i then .faulted else .stopped
            | _, .cranking => if s.feeding i then .faulted else .cranking)) ∧
    (∀ (s : State) (i : Nat) (r : SetRecord) (e : Engine), s.set i = some r →
        let recalled := match r.awaited with | some n => s.recall n | none => s
        let counting := fun (f : Counters → Counters) (u : State) =>
          u.changeSet i fun q => { q with lease := q.lease.map fun l => { l with total := f l.total, current := f l.current } }
        let warmed := fun u : State =>
          counting (fun c => { c with starts := BitVec.ofNat 16 (min (c.starts.toNat + 1) 65535) })
            ((u.enterSet i .warming).changeSet i fun q =>
              { q with timer := some ⟨.warmUp, 10 * (match r.lease with | some l => l.warmUp | none => 120)⟩ })
        let cranked := fun u : State =>
          (u.enterSet i (.cranking 1 .crank)).changeSet i fun q => { q with timer := some ⟨.crank, 150⟩ }
        let found := fun (u : State) (wasCranking : Bool) =>
          match e with
          | .running => if wasCranking && !s.feeding i then warmed u else u.enterSet i .online
          | .off => if s.feeding i then u.faultSet i .offWhileFeeding else u.enterSet i .stopped
          | .cranking => if s.feeding i then u.faultSet i .offWhileFeeding else cranked u
          | .shutdown => u.faultSet i .shutdown
        s.judgeEngine i r e =
          match r.state, e with
          | .unknown, _ => found s false
          | .lost q, _ =>
            found
              (if decide (e = .running) && r.report.any fun y => decide (y.engine = .running) then
                counting (fun c => { c with gaps := BitVec.ofNat 16 (min (c.gaps.toNat + 1) 65535) }) s
              else s) (decide (q = .cranking))
          | .faulted _, _ => s
          | _, .shutdown => s.faultSet i .shutdown
          | .stopped, .cranking => cranked s
          | .stopped, .running => warmed s
          | .cranking _ p, .running =>
            if decide (p = .crank) || r.timer.isSome || s.awaitsUncommitted i then warmed recalled else s
          | .warming, .off => s.faultSet i .stoppedLocally
          | .warming, .cranking => s.faultSet i .stoppedLocally
          | .online, .off => s.faultSet i .stoppedLocally
          | .online, .cranking => s.faultSet i .stoppedLocally
          | .cooling, .off =>
            let stopped := recalled.enterSet i .stopped
            if r.startPending then stopped.startFromStopped i else stopped
          | _, _ => s) ∧
    (∀ (s : State) (i : Nat) (r : SetRecord) (x : SetReport), s.set i = some r →
        let measured := s.changeSet i fun q => q.measure x (s.deliveryOpen i)
        let switch := x.alarm.getLsbD 4
        s.applySetReport i x =
            (((((s.judgeEngine i r x.engine).judgeFuel i x).judgeFuelLow i x).judgeAlarm i x).changeSet i fun q =>
              { q with report := some x }) ∧
          s.judgeFuel i x =
            (match r.reference with
              | some f =>
                if s.deliveryOpen i = false ∧ f + 100 < x.level then
                  measured.post .unexplainedRise (be 1 i ++ be 2 f ++ be 2 x.level)
                else measured
              | none => measured) ∧
          s.judgeFuelLow i x =
            (if r.fuelLow = false ∧ (x.level < (s.marksOf i).low ∨ switch = true) then
              ((s.changeSet i fun q => { q with fuelLow := true }).post .fuelLow
                (be 1 i ++ be 2 x.level ++ be 1 (flag switch))).tell (.fuelLowRaised i [])
            else if r.fuelLow = true ∧ (s.marksOf i).lowClear ≤ x.level ∧ switch = false then
              ((s.changeSet i fun q => { q with fuelLow := false }).post .fuelLowClear
                (be 1 i ++ be 2 x.level)).tell (.fuelLowCleared i)
            else s) ∧
          s.judgeAlarm i x =
            if x.alarm ≠ r.snapshot ∧ r.latchHeld = false then
              (s.changeSet i fun q => { q with snapshot := x.alarm, latchHeld := true }).post .alarmChange
                (be 1 i ++ [x.alarm, r.snapshot])
            else s) ∧
    (∀ (r : SetRecord) (x : SetReport) (l : Lease), r.lease = some l →
        let energy := match r.report with | none => 0 | some y => (x.energy - y.energy).toNat
        let burn := match r.reference with | none => 0 | some f => f - x.level
        ∃ m, (r.measure x false).lease = some m ∧ (r.measure x false).report = r.report ∧
          m.total.energy.toNat = min (l.total.energy.toNat + energy) 4294967295 ∧
          m.current.energy.toNat = min (l.current.energy.toNat + energy) 4294967295 ∧
          m.total.burned.toNat = min (l.total.burned.toNat + burn) 4294967295 ∧
          m.current.burned.toNat = min (l.current.burned.toNat + burn) 4294967295 ∧
          (l.windowEnergy + energy < 50000 →
            m.windowBurn = l.windowBurn + burn ∧ m.windowEnergy = l.windowEnergy + energy ∧ m.measured = l.measured) ∧
          (50000 ≤ l.windowEnergy + energy →
            m.windowBurn = 0 ∧ m.windowEnergy = 0 ∧
              m.measured =
                some (max 50 (min 2000 ((l.windowBurn + burn) * 100000 / (l.windowEnergy + energy)))))) ∧
      (∀ (r : SetRecord) (x : SetReport) (l : Lease), r.lease = some l →
        let energy := match r.report with | none => 0 | some y => (x.energy - y.energy).toNat
        ∃ m, (r.measure x true).lease = some m ∧
          m.total.energy.toNat = min (l.total.energy.toNat + energy) 4294967295 ∧
          m.current.energy.toNat = min (l.current.energy.toNat + energy) 4294967295 ∧
          m.total.burned = l.total.burned ∧ m.current.burned = l.current.burned ∧ m.windowBurn = l.windowBurn ∧
          m.windowEnergy = l.windowEnergy ∧ m.measured = l.measured) ∧
      (∀ (r : SetRecord) (x : SetReport),
        (r.reference = none → ∀ d, (r.measure x d).reference = some x.level) ∧
          ∀ f, r.reference = some f →
            (r.measure x true).reference = some f ∧
              (r.measure x false).reference = some (if x.level < f ∨ f + 100 < x.level then x.level else f)) ∧
      ∀ (s : State) (i : Nat) (r : SetRecord) (x : SetReport), s.set i = some r →
        ∃ p q, (s.judgeEngine i r x.engine).set i = some p ∧ (s.applySetReport i x).set i = some q ∧
          q.state = p.state ∧ q.timer = p.timer ∧ q.awaited = p.awaited ∧ q.clearPending = p.clearPending ∧
          q.startPending = p.startPending ∧ q.lease = (p.measure x (s.deliveryOpen i)).lease ∧
          p.report = r.report ∧ p.reference = r.reference ∧ (r.lease = none → p.lease = none) ∧
          (∀ l, r.lease = some l →
            let start := if r.state.name ≠ .warming ∧ p.state.name = .warming then 1 else 0
            let gap :=
              if r.state.name = .lost ∧ x.engine = .running ∧ ∃ y, r.report = some y ∧ y.engine = .running then 1 else 0
            let counted := fun c : Counters =>
              { c with
                starts := BitVec.ofNat 16 (min (c.starts.toNat + start) 65535)
                gaps := BitVec.ofNat 16 (min (c.gaps.toNat + gap) 65535) }
            p.lease = some { l with total := counted l.total, current := counted l.current }) ∧
          q.report = some x ∧
          q.fuelLow =
            (if r.fuelLow then !(decide ((s.marksOf i).lowClear ≤ x.level) && !x.alarm.getLsbD 4)
              else decide (x.level < (s.marksOf i).low) || x.alarm.getLsbD 4) ∧
          q.snapshot = (if r.latchHeld then r.snapshot else x.alarm) ∧
          q.latchHeld = (r.latchHeld || x.alarm != r.snapshot) ∧
          q.reference = (r.measure x (s.deliveryOpen i)).reference

/-- R75: START SET, R79: STOP SET, R82: CLEAR FAULT: the checks in their order, and what each accepted request does to
the set and offers. -/
def Obligations.SetsStartStopAndClear : Prop :=
  ((∀ (s : State) (tag : Byte) (i : Nat), i < 256 → Offered s .yard 0x2A tag (be 1 i) →
        let t := s.judged .yard
        FirstDecides
          [(decide (11 < i), .refused .range 1 0xFF), (decide (s.set i = none), .refused .absent 1 0xFF),
            ((s.windows.deniesSet .crew i).isSome, .refused .denied 1 ((s.windows.deniesSet .crew i).getD 0xFF)),
            (decide (s.lease i = none), .refused .notLeased 1 0xFF)]
          (fun r => exec (.startSet .yard) s = .next (t.replied .yard r))
          ((s.setStateOf i = some .stopped →
              (s.line.consoleRoom .routine = false →
                  exec (.startSet .yard) s = .next (t.replied .yard (.refused .busy 0 0xFF))) ∧
                (s.line.consoleRoom .routine = true →
                  exec (.startSet .yard) s = .next ((t.startFromStopped i).finish.didReply .yard []))) ∧
            (s.setStateOf i = some .cooling →
              ((∃ r, s.set i = some r ∧ r.timer ≠ none) ∨ s.awaitsUncommitted i = true →
                  exec (.startSet .yard) s = .next ((t.returnOnline i).finish.didReply .yard [])) ∧
                ((∀ r, s.set i = some r → r.timer = none) → s.awaitsUncommitted i = false →
                  exec (.startSet .yard) s = .next (t.replied .yard (.refused .state 1 0xFF)))) ∧
            (s.setStateOf i ≠ some .stopped → s.setStateOf i ≠ some .cooling →
              exec (.startSet .yard) s = .next (t.replied .yard (.refused .state 1 0xFF))))) ∧
      (∀ (s : State) (i : Nat),
        s.startFromStopped i =
          ((s.enterSet i (.cranking 1 .crank)).changeSet i fun r => { r with awaited := some s.line.nextSerial }).offer
            .startEngine i .routine) ∧
      ∀ (s : State) (i : Nat) (r : SetRecord), s.set i = some r →
        s.returnOnline i = (match r.awaited with | some n => s.recall n | none => s).enterSet i .online) ∧
    (∀ (s : State) (tag : Byte) (i : Nat), i < 256 → Offered s .yard 0x2B tag (be 1 i) →
        let t := s.judged .yard
        FirstDecides
          [(decide (11 < i), .refused .range 1 0xFF), (decide (s.set i = none), .refused .absent 1 0xFF),
            ((s.windows.deniesSet .crew i).isSome, .refused .denied 1 ((s.windows.deniesSet .crew i).getD 0xFF)),
            (s.stages.cells.any fun k => k.fedSet == some i || k.outgoing == some i || k.incoming == some i,
              .refused .state 1 0xFF),
            (decide (s.setStateOf i ≠ some .online ∧ s.setStateOf i ≠ some .warming), .refused .state 1 0xFF)]
          (fun r => exec (.stopSet .yard) s = .next (t.replied .yard r))
          (∃ r, s.set i = some r ∧
            exec (.stopSet .yard) s =
              .next (((t.enterSet i .cooling).changeSet i fun q =>
                { q with
                  timer := some
                    ⟨.coolDown, 10 * (match r.lease with | some l => l.coolDown | none => 300)⟩ }).finish.didReply
                      .yard []))) ∧
      ∀ (s : State) (tag : Byte) (i : Nat), i < 256 → Offered s .yard 0x2C tag (be 1 i) →
        let t := s.judged .yard
        FirstDecides
          [(decide (11 < i), .refused .range 1 0xFF), (decide (s.set i = none), .refused .absent 1 0xFF),
            ((s.windows.deniesSet .crew i).isSome, .refused .denied 1 ((s.windows.deniesSet .crew i).getD 0xFF)),
            (decide (s.setStateOf i ≠ some .faulted), .refused .state 1 0xFF),
            ((s.set i).any fun r => r.clearPending, .refused .state 1 0xFF),
            (s.stages.cells.any fun k => k.fedSet == some i, .refused .state 1 0xFF),
            (!s.line.consoleRoom .routine, .refused .busy 0 0xFF)]
          (fun r => exec (.clearFault .yard) s = .next (t.replied .yard r))
          (exec (.clearFault .yard) s =
            .next (((t.changeSet i fun r =>
              { r with clearPending := true, awaited := some s.line.nextSerial }).offer .clearShutdown i
                .routine).finish.didReply .yard []))

/-- R93: LEASE SET, R94 and R196: RELEASE SET, R85: ACK ALARMS, R86: SET MARKS: the checks in their order, and what
each accepted request does. -/
def Obligations.LeasesAlarmsAndMarks : Prop :=
  ((∀ (s : State) (tag : Byte) (i vendor hire rating capacity declared warmUp coolDown : Nat),
        i < 256 → vendor < 65536 → hire < 4294967296 → rating < 65536 → capacity < 65536 → declared < 65536 →
        warmUp < 65536 → coolDown < 65536 →
        let payload :=
          be 1 i ++ be 2 vendor ++ be 4 hire ++ be 2 rating ++ be 2 capacity ++ be 2 declared ++ be 2 warmUp ++ be 2 coolDown
        Offered s .office 0x28 tag payload →
          let t := s.judged .office
          FirstDecides
            [(decide (11 < i), .refused .range 1 0xFF), (decide (s.set i = none), .refused .absent 1 0xFF),
              ((s.windows.deniesSet .office i).isSome, .refused .denied 1 ((s.windows.deniesSet .office i).getD 0xFF)),
              (decide (s.lease i ≠ none), .refused .conflict 1 0xFF),
              (decide (rating = 0), .refused .range 4 0xFF),
              (decide (capacity = 0 ∨ capacity < (s.marksOf i).high), .refused .range 5 0xFF),
              (decide (declared < 100 ∨ 2000 < declared), .refused .range 6 0xFF),
              (decide (warmUp ≠ 0 ∧ (warmUp < 30 ∨ 600 < warmUp)), .refused .range 7 0xFF),
              (decide (coolDown ≠ 0 ∧ (coolDown < 60 ∨ 900 < coolDown)), .refused .range 8 0xFF)]
            (fun r => exec (.leaseSet .office) s = .next (t.replied .office r))
            (exec (.leaseSet .office) s =
              .next ((t.changeSet i fun r =>
                { r with
                  lease := some
                    ⟨vendor, hire, rating, capacity, declared, if warmUp = 0 then 120 else warmUp,
                      if coolDown = 0 then 300 else coolDown, ⟨s.clock.day, s.clock.second⟩, .zero, .zero, none, 0,
                      0⟩ }).didReply .office []))) ∧
      ∀ (s : State) (tag : Byte) (i : Nat), i < 256 → Offered s .office 0x29 tag (be 1 i) →
        let t := s.judged .office
        let counted := match s.period.close with | some c => c.counted | none => []
        FirstDecides
          [(decide (11 < i), .refused .range 1 0xFF), (decide (s.set i = none), .refused .absent 1 0xFF),
            ((s.windows.deniesSet .office i).isSome, .refused .denied 1 ((s.windows.deniesSet .office i).getD 0xFF)),
            (decide (s.lease i = none), .refused .notLeased 1 0xFF),
            (decide (s.setStateOf i ≠ some .stopped) ||
                (s.stages.cells.any fun k => k.inputA == some i || k.inputB == some i) ||
                s.deliveries.channels.cells.any fun x => x.open_.any fun d => d.set == i,
              .refused .state 1 0xFF),
            (decide (i ∉ counted ∧ 24 ≤ s.period.hire.length + counted.length), .refused .full 0 0xFF)]
          (fun r => exec (.releaseSet .office) s = .next (t.replied .office r))
          (∃ l, s.lease i = some l ∧
            exec (.releaseSet .office) s =
              .next ((({ t with
                period := { s.period with
                  hire := s.period.hire ++
                    [⟨i, .release, l.vendor, l.hire, s.period.number, l.current, ⟨s.clock.day, s.clock.second⟩⟩]
                  close := s.period.close.map fun c => { c with counted := c.counted.filter fun j => j != i } } } :
                State).changeSet i fun r => { r with lease := none }).didReply .office []))) ∧
    (∀ (s : State) (tag : Byte) (i : Nat), i < 256 → Offered s .yard 0x2D tag (be 1 i) →
        let t := s.judged .yard
        FirstDecides
          [(decide (11 < i), .refused .range 1 0xFF), (decide (s.set i = none), .refused .absent 1 0xFF)]
          (fun r => exec (.ackAlarms .yard) s = .next (t.replied .yard r))
          (∃ r, s.set i = some r ∧
            let word := match r.report with | some x => x.alarm | none => 0
            exec (.ackAlarms .yard) s =
              .next ((t.changeSet i fun q => { q with snapshot := word, latchHeld := false }).didReply .yard [word]))) ∧
      ∀ (s : State) (tag : Byte) (i low lowClear highClear high : Nat), i < 256 → low < 65536 →
        lowClear < 65536 → highClear < 65536 → high < 65536 →
        let payload := be 1 i ++ be 2 low ++ be 2 lowClear ++ be 2 highClear ++ be 2 high
        Offered s .yard 0x2E tag payload →
          let t := s.judged .yard
          FirstDecides
            [(decide (11 < i), .refused .range 1 0xFF), (decide (s.set i = none), .refused .absent 1 0xFF),
              (decide (lowClear ≤ low), .refused .range 3 0xFF), (decide (highClear ≤ lowClear), .refused .range 4 0xFF),
              (decide (high ≤ highClear) || (s.lease i).any fun l => decide (l.capacity < high), .refused .range 5 0xFF)]
            (fun r => exec (.setMarks .yard) s = .next (t.replied .yard r))
            (exec (.setMarks .yard) s =
              .next (({ t with marks := s.marks.set i ⟨low, lowClear, highClear, high⟩ } : State).didReply .yard []))

/-- R95: READ SET, on either port: 97 bytes in the layout of the rule; nothing changes. The two bytes of the measured rate
of a lease that has none are 0, and the window is sent by its low 32 bits: both are the model's (log entries 40 and 23). The states and the
causes are coded as R84 gives, the engine condition as section 4.4 gives. -/
def Obligations.SetsAreRead : Prop :=
  ∀ (s : State) (p : Port) (tag : Byte) (i : Nat), i < 256 → Offered s p 0x2F tag (be 1 i) →
    let t := s.judged p
    (11 < i → exec (.readSet p) s = .next (t.replied p (.refused .range 1 0xFF))) ∧
      (i ≤ 11 → s.set i = none → exec (.readSet p) s = .next (t.replied p (.refused .absent 1 0xFF))) ∧
      ∀ r, i ≤ 11 → s.set i = some r → ∃ head report middle lease : List Byte,
        exec (.readSet p) s = .next (t.didReply p (head ++ report ++ middle ++ lease)) ∧
          head =
            be 1 i ++
              be 1
                (match r.state with
                  | .unknown => 0
                  | .stopped => 1
                  | .cranking _ _ => 2
                  | .warming => 3
                  | .online => 4
                  | .cooling => 5
                  | .faulted _ => 6
                  | .lost _ => 7) ++
              be 1
                (match r.state with
                  | .lost .stopped => 1
                  | .lost .cranking => 2
                  | .lost .warming => 3
                  | .lost .online => 4
                  | .lost .cooling => 5
                  | .lost .faulted => 6
                  | .lost .lost => 7
                  | _ => 0) ++
              be 1
                (match r.state with
                  | .faulted .noStart => 1
                  | .faulted .shutdown => 2
                  | .faulted .stoppedLocally => 3
                  | .faulted .offWhileFeeding => 4
                  | .faulted .stopFailed => 5
                  | _ => 0) ++
              be 1 (match r.state with | .cranking n _ => n | _ => 0) ++
              be 1
                (flag r.clearPending + 2 * flag r.startPending +
                  4 * (match r.state with | .cranking _ .rest => 1 | _ => 0) + 8 * flag r.fuelLow +
                  16 * flag r.latchHeld + 32 * flag r.report.isSome + 64 * flag r.reference.isSome +
                  128 * flag (s.deliveries.channels.cells.any fun x => x.open_.any fun d => d.set == i)) ∧
          report =
            (match r.report with
              | some x =>
                be 1 (match x.engine with | .off => 0 | .cranking => 1 | .running => 2 | .shutdown => 3) ++ [x.alarm] ++ be 2 x.level ++ be 4 x.energy.toNat ++ be 2 x.power ++
                  be 1 x.stamp.day ++ be 3 x.stamp.second
              | none => List.replicate 14 0) ∧
          middle =
            [r.snapshot] ++ be 2 (r.reference.getD 0) ++ be 2 (s.marksOf i).low ++ be 2 (s.marksOf i).lowClear ++
              be 2 (s.marksOf i).highClear ++ be 2 (s.marksOf i).high ++ be 1 (flag r.lease.isSome) ∧
          lease =
            (match r.lease with
              | some l =>
                be 2 l.vendor ++ be 4 l.hire ++ be 2 l.rating ++ be 2 l.capacity ++ be 2 l.declared ++ be 2 l.warmUp ++
                  be 2 l.coolDown ++ be 1 l.stamp.day ++ be 3 l.stamp.second ++
                  be 4 l.total.runtime.toNat ++ be 4 l.current.runtime.toNat ++
                  be 4 l.total.burned.toNat ++ be 4 l.current.burned.toNat ++
                  be 4 l.total.energy.toNat ++ be 4 l.current.energy.toNat ++
                  be 2 l.total.starts.toNat ++ be 2 l.current.starts.toNat ++
                  be 2 l.total.gaps.toNat ++ be 2 l.current.gaps.toNat ++
                  be 1 (flag l.measured.isSome) ++ be 2 (l.measured.getD 0) ++ be 4 l.windowBurn ++
                  be 4 l.windowEnergy ++ be 2 (l.measured.getD l.declared)
              | none => List.replicate 65 0) ∧
          (head ++ report ++ middle ++ lease).length = 97

/-- R76, R77, R80: the expiries of a set's four timers. Where that timer has not expired, in any other state, and for a
set with no record, nothing happens (the model's choice, log entry 2). That a timer at 0 has expired is how the model
keeps it (log entry 3). R76, R77, R80, R82: what the outcome of an engine command does, where it is the command whose
outcome the set waits for and the set is still in the state that offered it: the crank timer, the rest, another STOP
ENGINE, FAULTED, or the judgement of a cleared set from its report; every other outcome is discarded. R74, R81: what
becoming FAULTED does: the engine commands not committed are recalled, and SHUTDOWN offers a SAFETY STOP ENGINE. -/
def Obligations.SetTimersExpire : Prop :=
  (∀ (s : State) (i : Nat), s.set i = none →
    exec (.crankTimerExpiry i) s = .next s.finish.transmit ∧ exec (.crankRestExpiry i) s = .next s.finish.transmit ∧
      exec (.warmUpExpiry i) s = .next s.finish.transmit ∧ exec (.coolDownExpiry i) s = .next s.finish.transmit) ∧
  (∀ (s : State) (i : Nat) (r : SetRecord), s.set i = some r →
    (∀ n, r.state = .cranking n .crank → r.timer = some ⟨.crank, 0⟩ →
        exec (.crankTimerExpiry i) s =
          .next ((({ s with
            sets := s.sets.set i
              (some { r with state := .cranking n .rest, timer := none, awaited := some s.line.nextSerial }) } :
            State).offer .stopEngine i .routine).finish).transmit) ∧
      (∀ n, r.state = .cranking n .rest → r.timer = some ⟨.crankRest, 0⟩ →
        (n < 3 →
            exec (.crankRestExpiry i) s =
              .next ((({ s with
                sets := s.sets.set i
                  (some { r with state := .cranking (n + 1) .crank, timer := none, awaited := some s.line.nextSerial }) } :
                State).offer .startEngine i .routine).finish).transmit) ∧
          (3 ≤ n →
            exec (.crankRestExpiry i) s =
              .next (((s.recallEngine i).enterSet i (.faulted .noStart)).finish).transmit)) ∧
      (r.state = .warming → r.timer = some ⟨.warmUp, 0⟩ →
        exec (.warmUpExpiry i) s = .next ((s.enterSet i .online).finish).transmit) ∧
      (r.state = .cooling → r.timer = some ⟨.coolDown, 0⟩ →
        exec (.coolDownExpiry i) s =
          .next ((({ s with
            sets := s.sets.set i (some { r with timer := none, awaited := some s.line.nextSerial }) } : State).offer
              .stopEngine i .routine).finish).transmit) ∧
      (r.timer ≠ some ⟨.crank, 0⟩ ∨ (∀ n, r.state ≠ .cranking n .crank) →
        exec (.crankTimerExpiry i) s = .next s.finish.transmit) ∧
      (r.timer ≠ some ⟨.crankRest, 0⟩ ∨ (∀ n, r.state ≠ .cranking n .rest) →
        exec (.crankRestExpiry i) s = .next s.finish.transmit) ∧
      (r.timer ≠ some ⟨.warmUp, 0⟩ ∨ r.state ≠ .warming → exec (.warmUpExpiry i) s = .next s.finish.transmit) ∧
      (r.timer ≠ some ⟨.coolDown, 0⟩ ∨ r.state ≠ .cooling → exec (.coolDownExpiry i) s = .next s.finish.transmit)) ∧
  (∀ (s : State) (i : Nat),
    s.recallEngine i =
      (((s.line.queue ++ s.line.waiting).filter fun c =>
        (c.order == .startEngine || c.order == .stopEngine) && c.object == i).map fun c => c.serial).foldl State.recall s) ∧
  (∀ (s : State) (i : Nat) (r : SetRecord) (cause : FaultCause), s.set i = some r →
    s.faultSet i cause =
      let running :=
        r.state.name = .cranking ∨ r.state.name = .warming ∨ r.state.name = .online ∨ r.state.name = .cooling
      let faulted := (if running then s.recallEngine i else s).enterSet i (.faulted cause)
      if cause = .shutdown then faulted.offer .stopEngine i .safety else faulted) ∧
  (∀ (s : State) (c : Command) (o : CommandOutcome), s.set c.object = none → s.engineOutcome c o = s) ∧
  ∀ (s : State) (c : Command) (o : CommandOutcome) (r : SetRecord), s.set c.object = some r →
    let i := c.object
    let now := fun q : SetRecord => ({ s with sets := s.sets.set i (some q) } : State)
    (r.awaited ≠ some c.serial → s.engineOutcome c o = s) ∧
      (r.awaited = some c.serial →
        (∀ n, r.state = .cranking n .crank → c.order = .startEngine →
            s.engineOutcome c o =
              match o with
              | .done => now { r with awaited := none, timer := some ⟨.crank, 150⟩ }
              | .noAnswer =>
                now { r with state := .cranking n .rest, awaited := none, timer := some ⟨.crankRest, 100⟩ }
              | .removed => s) ∧
          (∀ n, r.state = .cranking n .rest → c.order = .stopEngine →
            s.engineOutcome c o =
              match o with
              | .done => now { r with awaited := none, timer := some ⟨.crankRest, 100⟩ }
              | .noAnswer => s.faultSet i .stopFailed
              | .removed => s) ∧
          (r.state = .cooling → c.order = .stopEngine →
            s.engineOutcome c o =
              match o with
              | .done => (now { r with awaited := some s.line.nextSerial }).offer .stopEngine i .routine
              | .noAnswer => s.faultSet i .stopFailed
              | .removed => s) ∧
          (∀ cause, r.state = .faulted cause → c.order = .clearShutdown →
            let cleared : SetRecord := { r with clearPending := false, awaited := none }
            (o ≠ .done ∨ r.report = none → s.engineOutcome c o = now cleared) ∧
              ∀ x, o = .done → r.report = some x →
                s.engineOutcome c o =
                  match x.engine with
                  | .running => (now cleared).enterSet i .online
                  | .shutdown => now { cleared with state := .faulted .shutdown }
                  | .off =>
                    if s.feeding i then now { cleared with state := .faulted .offWhileFeeding }
                    else (now cleared).enterSet i .stopped
                  | .cranking =>
                    if s.feeding i then now { cleared with state := .faulted .offWhileFeeding }
                    else
                      ((now cleared).enterSet i (.cranking 1 .crank)).changeSet i fun q =>
                        { q with timer := some ⟨.crank, 150⟩ }) ∧
          ((∀ n, r.state = .cranking n .crank → c.order ≠ .startEngine) →
            (∀ n, r.state = .cranking n .rest → c.order ≠ .stopEngine) → (r.state = .cooling → c.order ≠ .stopEngine) →
            (∀ cause, r.state = .faulted cause → c.order ≠ .clearShutdown) → s.engineOutcome c o = s))

/-! ## Fuel deliveries (06) -/

/-- R99, R202: OPEN DELIVERY: its checks in order, before them the refusal while a soft reset is due; accepted, the
ticket's fields are set, the channel is ARMED, the opened count rises and PUMP RUN is offered. -/
def Obligations.OpenDeliveryArmsTheChannel : Prop :=
  ∀ (s : State) (tag : Byte) (c ticket supplier i ordered : Nat),
    c < 256 → ticket < 4294967296 → supplier < 65536 → i < 256 → ordered < 65536 →
    let payload := be 1 c ++ be 4 ticket ++ be 2 supplier ++ be 1 i ++ be 2 ordered
    Offered s .yard 0x30 tag payload →
      let t := s.judged .yard
      FirstDecides
        [(s.loader.resetDue, .refused .state 0 0xFF),
          (decide (2 < c), .refused .range 1 0xFF), (decide (11 < i), .refused .range 4 0xFF),
          ((s.channel c).any fun x => !x.isIdle, .refused .state 1 0xFF),
          (decide (s.line.station .bowser c = none), .refused .absent 1 0xFF),
          (decide (s.set i = none), .refused .absent 4 0xFF), (decide (s.lease i = none), .refused .notLeased 4 0xFF),
          (s.deliveries.channels.cells.any fun x => x.target == some i, .refused .conflict 4 0xFF),
          (!(s.line.station .bowser c).any fun st => st.state == .answering, .refused .state 1 0xFF),
          (!(s.line.station .set i).any fun st => st.state == .answering, .refused .state 4 0xFF),
          (decide ((s.marksOf i).highClear ≤ s.levelOf i), .refused .state 4 0xFF),
          (decide (ordered = 0) || (s.lease i).any fun l => decide (l.capacity < ordered), .refused .range 5 0xFF),
          (decide (s.deliveries.opened = 4294967295), .refused .full 0 0xFF),
          (!s.line.consoleRoom .routine, .refused .busy 0 0xFF)]
        (fun r => exec (.openDelivery .yard) s = .next (t.replied .yard r))
        (∃ x, s.channel c = some x ∧
          let d : Delivery :=
            ⟨ticket, supplier, i, ordered, (match x.report with | some y => y.count | none => 0), 0, s.levelOf i, 0, 0,
              false, false, false, none, ⟨s.clock.day, s.clock.second⟩⟩
          exec (.openDelivery .yard) s =
            .next ((({ t with
              deliveries := { s.deliveries with
                channels := s.deliveries.channels.set c { x with state := .armed d }
                opened := s.deliveries.opened + 1 } } : State).offer .pumpRun c .routine).finish.didReply .yard []))

/-- R102, R104 to R107: HOLD, RESUME, FINISH and CANCEL DELIVERY by the state of the channel. `stopPump` and `runPump`
are the two procedures of R102: stopping withdraws a PUMP RUN that is queued and not committed, and offers no PUMP HALT
then; `haltChannel` is the entry to HALTED with DELIVERY HALTED (R101), `closeDelivery` the close of R113. That a PUMP
RUN on the waiting list is not withdrawn is the model's reading (log entry 14). R103: what the outcome of a PUMP RUN or a
PUMP HALT does, by the state of the channel; that of a halt offered for a ticket that has closed does nothing, which the
model tells by the halt's serial (log entry 13). -/
def Obligations.CrewRequestsOnADelivery : Prop :=
  (∀ (s : State) (tag : Byte) (c : Nat) (x : Channel), c < 256 → s.channel c = some x →
      (Offered s .yard 0x31 tag (be 1 c) →
          let t := s.judged .yard
          (∀ d, x.state = .armed d ∨ x.state = .flowing d →
              (s.haltBusy c = true →
                  exec (.holdDelivery .yard) s = .next (t.replied .yard (.refused .busy 0 0xFF))) ∧
                (s.haltBusy c = false → ∃ e, (t.stopPump c).delivery c = some e ∧
                  exec (.holdDelivery .yard) s =
                    .next (((t.stopPump c).haltChannel c e .hold).finish.didReply .yard []))) ∧
            (∀ d q, x.state = .halted d q →
              exec (.holdDelivery .yard) s = .next ((t.setChannel c (.halted d .hold)).finish.didReply .yard [])) ∧
            (x.state = .idle ∨ (∃ d n, x.state = .settling d n) ∨ (∃ r n, x.state = .heldLog r n) →
              exec (.holdDelivery .yard) s = .next (t.replied .yard (.refused .state 1 0xFF)))) ∧
        (Offered s .yard 0x32 tag (be 1 c) →
          let t := s.judged .yard
          (∀ d, x.state = .halted d .hold →
              (s.line.stationIs .set d.set .lost = true ∨ s.haltOutstanding c = true →
                  exec (.resumeDelivery .yard) s = .next (t.replied .yard (.refused .state 1 0xFF))) ∧
                (s.line.stationIs .set d.set .lost = false → s.haltOutstanding c = false →
                  ((s.marksOf d.set).highClear ≤ s.levelOf d.set →
                      exec (.resumeDelivery .yard) s =
                        .next ((t.setChannel c (.halted d .highMark)).finish.didReply .yard [])) ∧
                    (s.levelOf d.set < (s.marksOf d.set).highClear → s.line.consoleRoom .routine = false →
                      exec (.resumeDelivery .yard) s = .next (t.replied .yard (.refused .busy 0 0xFF))) ∧
                    (s.levelOf d.set < (s.marksOf d.set).highClear → s.line.consoleRoom .routine = true →
                      exec (.resumeDelivery .yard) s =
                        .next (((t.setChannel c (if d.delivered = 0 then .armed d else .flowing d)).runPump
                          c).finish.didReply .yard [])))) ∧
            ((∀ d, x.state ≠ .halted d .hold) →
              exec (.resumeDelivery .yard) s = .next (t.replied .yard (.refused .state 1 0xFF)))) ∧
        (Offered s .yard 0x33 tag (be 1 c) →
          let t := s.judged .yard
          (∀ d, x.state = .armed d ∨ x.state = .flowing d →
              (s.haltBusy c = true →
                  exec (.finishDelivery .yard) s = .next (t.replied .yard (.refused .busy 0 0xFF))) ∧
                (s.haltBusy c = false → ∃ e, (t.stopPump c).delivery c = some e ∧
                  exec (.finishDelivery .yard) s =
                    .next (((t.stopPump c).setChannel c (.settling e 600)).finish.didReply .yard []))) ∧
            (∀ d q, x.state = .halted d q →
              exec (.finishDelivery .yard) s = .next ((t.setChannel c (.settling d 600)).finish.didReply .yard [])) ∧
            (x.state = .idle ∨ (∃ d n, x.state = .settling d n) ∨ (∃ r n, x.state = .heldLog r n) →
              exec (.finishDelivery .yard) s = .next (t.replied .yard (.refused .state 1 0xFF)))) ∧
        (Offered s .yard 0x34 tag (be 1 c) →
          let t := s.judged .yard
          (∀ d, x.state = .armed d →
              (s.haltBusy c = true →
                  exec (.cancelDelivery .yard) s = .next (t.replied .yard (.refused .busy 0 0xFF))) ∧
                (s.haltBusy c = false → ∃ e, (t.stopPump c).delivery c = some e ∧
                  exec (.cancelDelivery .yard) s =
                    .next (((t.stopPump c).closeDelivery c e true).finish.didReply .yard []))) ∧
            ((∀ d, x.state ≠ .armed d) →
              exec (.cancelDelivery .yard) s = .next (t.replied .yard (.refused .state 1 0xFF))))) ∧
    (∀ (s : State) (tag : Byte) (c : Nat), 2 < c → c < 256 →
      (Offered s .yard 0x31 tag (be 1 c) →
          exec (.holdDelivery .yard) s =
            .next ((s.judged .yard).replied .yard (.refused .range 1 0xFF))) ∧
        (Offered s .yard 0x32 tag (be 1 c) →
          exec (.resumeDelivery .yard) s =
            .next ((s.judged .yard).replied .yard (.refused .range 1 0xFF))) ∧
        (Offered s .yard 0x33 tag (be 1 c) →
          exec (.finishDelivery .yard) s =
            .next ((s.judged .yard).replied .yard (.refused .range 1 0xFF))) ∧
        (Offered s .yard 0x34 tag (be 1 c) →
          exec (.cancelDelivery .yard) s =
            .next ((s.judged .yard).replied .yard (.refused .range 1 0xFF)))) ∧
    (∀ (s : State) (c : Nat),
      (s.haltBusy c = true ↔ (∀ k ∈ s.line.queue, k.isPump .pumpRun c = true → k.committed = true) ∧
        s.haltOutstanding c = false ∧ s.line.consoleRoom .safety = false)) ∧
    ∀ (s : State) (c : Nat) (x : Channel), s.channel c = some x →
      ((∀ k ∈ s.line.queue, k.isPump .pumpRun c = true → k.committed = true) →
          (s.haltOutstanding c = true → s.stopPump c = s) ∧
            (s.haltOutstanding c = false →
              s.stopPump c =
                (s.changeDelivery c fun d => { d with halt := some s.line.nextSerial }).offer .pumpHalt c .safety)) ∧
        ((∃ k ∈ s.line.queue, k.isPump .pumpRun c = true ∧ k.committed = false) →
          s.stopPump c =
              ((s.line.queue.filter fun k => k.isPump .pumpRun c && !k.committed).map fun k => k.serial).foldl
                State.recall (s.changeDelivery c fun d => { d with haltConfirmed := true }) ∧
            (s.stopPump c).line.nextSerial = s.line.nextSerial ∧
            ∀ d, s.delivery c = some d → (s.stopPump c).delivery c = some { d with haltConfirmed := true }) ∧
        (∀ k before after, s.line.queue = before ++ k :: after → k.isPump .pumpRun c = true → k.committed = false →
          (∀ y ∈ before ++ after, y.serial ≠ k.serial ∧ (y.isPump .pumpRun c = true → y.committed = true)) →
          (∀ y ∈ s.line.waiting, y.serial ≠ k.serial) →
            ∃ entered, (s.stopPump c).line.queue = before ++ after ++ entered ∧ entered.Sublist s.line.waiting) ∧
        (∀ (d : Delivery) (cause : HaltCause),
          s.haltChannel c d cause =
            ({ s with
              deliveries := { s.deliveries with
                channels := s.deliveries.channels.set c { x with state := .halted d cause } } } : State).post
              .deliveryHalted
              (be 1 c ++ be 4 d.ticket ++ be 1 d.set ++
                be 1 (match cause with | .highMark => 1 | .hold => 2 | .gaugeLost => 3) ++ be 2 (s.levelOf d.set) ++
                be 4 d.delivered.toNat ++ be 1 d.highHalts.toNat)) ∧
        (∀ q, s.setChannel c q =
          { s with
            deliveries := { s.deliveries with channels := s.deliveries.channels.set c { x with state := q } } }) ∧
        (s.haltOutstanding c = false ↔ ∀ k ∈ s.line.queue ++ s.line.waiting, k.isPump .pumpHalt c = false) ∧
        (s.runOutstanding c = false ↔ ∀ k ∈ s.line.queue ++ s.line.waiting, k.isPump .pumpRun c = false) ∧
        (∀ (k : Command) (o : CommandOutcome), k.object = c → k.order = .pumpRun →
          (o = .done → (∃ d q, x.state = .halted d q) ∨ (∃ d n, x.state = .settling d n) →
              s.pumpOutcome k o = s.stopPump c) ∧
            (∀ d, o = .noAnswer → x.state = .armed d ∨ x.state = .flowing d →
              s.pumpOutcome k o = s.haltChannel c d .hold) ∧
            (o = .removed ∨ x.state = .idle ∨ (∃ r n, x.state = .heldLog r n) ∨
                (o = .done ∧ ∃ d, x.state = .armed d ∨ x.state = .flowing d) ∨
                (o = .noAnswer ∧ ∃ d, (∃ q, x.state = .halted d q) ∨ ∃ n, x.state = .settling d n) →
              s.pumpOutcome k o = s)) ∧
        (∀ (k : Command) (o : CommandOutcome), k.object = c → k.order = .pumpHalt →
          ((∀ d, x.open_ = some d → d.halt ≠ some k.serial) → s.pumpOutcome k o = s) ∧
            ∀ d, x.open_ = some d → d.halt = some k.serial →
              let e : Delivery := { d with haltConfirmed := true }
              let again := (s.changeDelivery c fun d => { d with halt := some s.line.nextSerial }).offer .pumpHalt c .safety
              (o = .done →
                  (x.state = .armed d → s.pumpOutcome k o = s.setChannel c (.armed e)) ∧
                    (x.state = .flowing d → s.pumpOutcome k o = s.setChannel c (.flowing e)) ∧
                    (∀ q, x.state = .halted d q → q ≠ .highMark →
                      s.pumpOutcome k o = s.setChannel c (.halted e q)) ∧
                    (x.state = .halted d .highMark →
                      s.pumpOutcome k o = (s.setChannel c (.halted e .highMark)).judgeResume c e) ∧
                    ∀ n, x.state = .settling d n → s.pumpOutcome k o = s.setChannel c (.settling e n)) ∧
                (o = .noAnswer →
                  ((∃ q, x.state = .halted d q) ∨ (∃ n, x.state = .settling d n) →
                      ((∀ st, s.line.station .bowser c = some st → st.state ≠ .lost) → s.pumpOutcome k o = again) ∧
                        ((∃ st, s.line.station .bowser c = some st ∧ st.state = .lost) → s.pumpOutcome k o = s)) ∧
                    (x.state = .armed d ∨ x.state = .flowing d → s.pumpOutcome k o = s)) ∧
                (o = .removed → s.pumpOutcome k o = s)) ∧
        s.runPump c =
          (if s.runOutstanding c then s.changeDelivery c fun d => { d with haltConfirmed := false }
            else (s.changeDelivery c fun d => { d with haltConfirmed := false }).offer .pumpRun c .routine)

/-- R110 to R114: the settle timer's expiry closes the delivery. The figures of the reconciliation, the outcome, the
record, the set's burn and reference, the log or the held channel, the counts, and the notices DELIVERY CLOSED and LOG
FULL. That a timer at 0 has expired is how the model keeps it (log entry 3); a held channel's rank is the model's own
(log entry 13). -/
def Obligations.SettledDeliveryIsReconciled : Prop :=
  (∀ (s : State) (c : Nat) (x : Channel) (d : Delivery), s.channel c = some x → x.state = .settling d 0 →
      exec (.settleExpiry c) s = .next (s.closeDelivery c d false).finish.transmit) ∧
    (∀ (s : State) (c : Nat) (x : Channel), s.channel c = some x → (∀ d, x.state ≠ .settling d 0) →
      exec (.settleExpiry c) s = .next s.finish.transmit) ∧
    (∀ (d : Delivery) (c endLevel rate : Nat) (cancelled : Bool) (closed : Stamp),
      let delivered := if cancelled then 0 else d.delivered.toNat
      let burn := rate * d.energy.toNat / 100000
      let gap : Int := (delivered : Int) - ((endLevel : Int) - (d.startLevel : Int)) - (burn : Int)
      let r := d.record c endLevel rate cancelled closed
      r.ticket = d.ticket ∧ r.supplier = d.supplier ∧ r.channel = c ∧ r.set = d.set ∧ r.ordered = d.ordered ∧
        r.delivered.toNat = delivered ∧ r.startLevel = d.startLevel ∧ r.endLevel = endLevel ∧ r.energy = d.energy ∧
        r.rate = rate ∧ r.burn = burn ∧
        r.discrepancy = (if gap < -2147483648 then -2147483648 else if 2147483647 < gap then 2147483647 else gap) ∧
        (r.disputed = true ↔ delivered / 50 < gap.natAbs ∧ 200 < gap.natAbs) ∧
        r.outcome =
          (if cancelled then .cancelled else if d.meterLost then .meterLost
            else if d.ordered ≤ d.delivered.toNat then .complete else .short) ∧
        r.gaugeLost = d.gaugeLost ∧ r.meterLost = d.meterLost ∧ r.highHalts = d.highHalts ∧ r.opened = d.opened ∧
        r.closed = closed) ∧
    ∀ (s : State) (c : Nat) (x : Channel) (d : Delivery) (cancelled : Bool), s.channel c = some x →
      let r := d.record c (s.levelOf d.set) (s.rateInUse d.set) cancelled ⟨s.clock.day, s.clock.second⟩
      let u := s.closeDelivery c d cancelled
      (s.deliveries.log.length < 32 →
          u.deliveries.log = s.deliveries.log ++ [r] ∧ u.channel c = some { x with state := .idle }) ∧
        (32 ≤ s.deliveries.log.length →
          u.deliveries.log = s.deliveries.log ∧
            u.channel c = some { x with state := .heldLog r s.deliveries.nextHeld } ∧
            u.deliveries.nextHeld = s.deliveries.nextHeld + 1) ∧
        u.deliveries.opened = s.deliveries.opened ∧ u.deliveries.taken = s.deliveries.taken ∧
        (let closed :=
            s.post .deliveryClosed
              (be 1 c ++ be 4 r.ticket ++ be 1 r.set ++
                be 1 (match r.outcome with | .complete => 1 | .short => 2 | .cancelled => 3 | .meterLost => 4) ++
                be 4 r.delivered.toNat ++ be 4 (r.discrepancy % 4294967296).toNat ++ be 1 (flag r.disputed) ++
                be 1 (if s.deliveries.log.length < 32 then 0 else 1))
          let full :=
            closed.post .logFull
              (be 1 c ++ be 4 r.ticket ++ be 1 (u.deliveries.channels.cells.filter fun y => y.held.isSome).length)
          ∀ p, u.port p = if s.deliveries.log.length < 32 then closed.port p else full.port p) ∧
        (∀ j, j ≠ c → u.channel j = s.channel j) ∧
        (∀ q l, s.set d.set = some q → q.lease = some l → ∃ m,
          u.set d.set =
              some { q with
                reference := (match q.report with | some y => some y.level | none => q.reference)
                lease := some m } ∧
            m.total.burned.toNat = min (l.total.burned.toNat + r.burn) 4294967295 ∧
            m.current.burned.toNat = min (l.current.burned.toNat + r.burn) 4294967295 ∧
            m.windowBurn = l.windowBurn ∧ m.windowEnergy = l.windowEnergy ∧ m.measured = l.measured) ∧
        (∀ j, j ≠ d.set → u.set j = s.set j) ∧ u.line = s.line ∧ u.stages = s.stages ∧ u.billing = s.billing ∧
        u.tally = s.tally ∧ u.period = s.period ∧ u.told = s.told

/-- R115: TAKE DELIVERY RECORD: the oldest record goes out, with the number left (counted before a held record joins,
log entry 29), and the held record of the channel that was held first takes the place it frees. R117: READ CHANNEL, on
either port: 49 bytes in the layout of the rule; nothing changes. The zeros for a latest report that is absent are the
model's choice (log entry 31). -/
def Obligations.DeliveryRecordsAndChannels : Prop :=
  (∀ (s : State) (tag : Byte), Offered s .office 0x36 tag [] →
      let t := s.judged .office
      (s.deliveries.log = [] → exec (.takeDeliveryRecord .office) s = .next (t.replied .office (.refused .empty 0 0xFF))) ∧
        ∀ r log, s.deliveries.log = r :: log →
          let left : Deliveries := { s.deliveries with log := log, taken := s.deliveries.taken + 1 }
          let data :=
            be 4 r.ticket ++ be 2 r.supplier ++ be 1 r.channel ++ be 1 r.set ++ be 2 r.ordered ++ be 4 r.delivered.toNat ++
              be 2 r.startLevel ++ be 2 r.endLevel ++ be 4 r.energy.toNat ++ be 2 r.rate ++ be 4 r.burn ++
              be 4 (r.discrepancy % 4294967296).toNat ++
              be 1 (match r.outcome with | .complete => 1 | .short => 2 | .cancelled => 3 | .meterLost => 4) ++
              be 1 (flag r.disputed + 2 * flag r.gaugeLost + 4 * flag r.meterLost) ++ be 1 r.highHalts.toNat ++
              be 1 r.opened.day ++ be 3 r.opened.second ++ be 1 r.closed.day ++ be 3 r.closed.second ++ be 1 log.length
          data.length = 44 ∧
            ((∀ c x, s.channel c = some x → ∀ h n, x.state ≠ .heldLog h n) →
              exec (.takeDeliveryRecord .office) s =
                .next (({ t with deliveries := left } : State).didReply .office data)) ∧
            ∀ c x h n, s.channel c = some x → x.state = .heldLog h n →
              (∀ j y g m, s.channel j = some y → y.state = .heldLog g m → j ≠ c → n < m) →
                exec (.takeDeliveryRecord .office) s =
                  .next (({ t with
                    deliveries := { left with
                      channels := s.deliveries.channels.set c { x with state := .idle }
                      log := log ++ [h] } } : State).didReply .office data)) ∧
    ∀ (s : State) (p : Port) (tag : Byte) (c : Nat), c < 256 → Offered s p 0x35 tag (be 1 c) →
      let t := s.judged p
      (2 < c → exec (.readChannel p) s = .next (t.replied p (.refused .range 1 0xFF))) ∧
        ∀ x, s.channel c = some x → ∃ state cause flags ticket supplier set ordered start delivered level energy halts day
            second left : Nat,
          exec (.readChannel p) s =
              .next (t.didReply p
                (be 1 c ++ be 1 state ++ be 1 cause ++ be 1 (flags + 32 * flag x.report.isSome) ++ be 4 ticket ++
                  be 2 supplier ++ be 1 set ++ be 2 ordered ++ be 4 start ++
                  be 4 (match x.report with | some y => y.count.toNat | none => 0) ++
                  be 1 (match x.report with | some y => flag y.running | none => 0) ++ be 4 delivered ++ be 2 level ++
                  be 4 energy ++ be 1 halts ++ be 1 day ++ be 3 second ++ be 2 left ++ be 1 s.deliveries.log.length ++
                  be 1 (s.deliveries.channels.cells.filter fun y => y.held.isSome).length ++ be 4 s.deliveries.opened ++
                  be 4 s.deliveries.taken)) ∧
            state =
              (match x.state with
                | .idle => 0
                | .armed _ => 1
                | .flowing _ => 2
                | .halted _ _ => 3
                | .settling _ _ => 4
                | .heldLog _ _ => 5) ∧
            cause =
              (match x.state with
                | .halted _ .highMark => 1
                | .halted _ .hold => 2
                | .halted _ .gaugeLost => 3
                | _ => 0) ∧
            left = (match x.state with | .settling _ n => n | _ => 0) ∧
            (x.state = .idle →
              flags = 0 ∧ ticket = 0 ∧ supplier = 0 ∧ set = 0 ∧ ordered = 0 ∧ start = 0 ∧ delivered = 0 ∧ level = 0 ∧
                energy = 0 ∧ halts = 0 ∧ day = 0 ∧ second = 0) ∧
            (∀ d, x.open_ = some d →
              flags =
                  flag d.gaugeLost + 2 * flag d.meterLost + 4 * flag (s.haltOutstanding c) +
                    8 * flag (s.runOutstanding c) + 16 * flag d.haltConfirmed ∧
                ticket = d.ticket ∧ supplier = d.supplier ∧ set = d.set ∧ ordered = d.ordered ∧
                start = d.meterStart.toNat ∧ delivered = d.delivered.toNat ∧ level = d.startLevel ∧
                energy = d.energy.toNat ∧ halts = d.highHalts.toNat ∧ day = d.opened.day ∧ second = d.opened.second) ∧
            ∀ r n, x.state = .heldLog r n →
              flags = flag r.gaugeLost + 2 * flag r.meterLost ∧ ticket = r.ticket ∧ supplier = r.supplier ∧ set = r.set ∧
                ordered = r.ordered ∧ start = 0 ∧ delivered = r.delivered.toNat ∧ level = r.startLevel ∧
                energy = r.energy.toNat ∧ halts = r.highHalts.toNat ∧ day = r.opened.day ∧ second = r.opened.second

/-! ## Stage feeds and changeovers (07) -/

/-- R123: ASSIGN INPUT and R124: SET STAGE: the checks in their order, and the new setting. R140: READ STAGE, on
either port: 31 bytes in the layout of the rule; nothing changes. The zeros for what is absent are the model's choice
(log entry 34). -/
def Obligations.StageSettingsAndReading : Prop :=
  ((∀ (s : State) (tag : Byte) (k i set : Nat), k < 256 → i < 256 → set < 256 →
        Offered s .yard 0x38 tag (be 1 k ++ be 1 i ++ be 1 set) →
          let t := s.judged .yard
          let input : Input := if i = 0 then .a else .b
          let other := fun x : Stage => if i = 0 then x.inputB else x.inputA
          FirstDecides
            [(decide (7 < k), .refused .range 1 0xFF), (decide (1 < i), .refused .range 2 0xFF),
              (decide (11 < set ∧ set ≠ 255), .refused .range 3 0xFF),
              ((s.stage k).any fun x => x.isChanging, .refused .state 1 0xFF),
              ((s.stage k).any fun x => x.activeInput == some input, .refused .state 2 0xFF),
              (decide (set ≠ 255 ∧ s.set set = none), .refused .absent 3 0xFF),
              (decide (set ≠ 255) && (s.windows.deniesSet .crew set).isSome,
                .refused .denied 3 ((if set = 255 then none else s.windows.deniesSet .crew set).getD 0xFF)),
              (decide (set ≠ 255) && (s.stage k).any fun x => other x == some set, .refused .conflict 3 0xFF)]
            (fun r => exec (.assignInput .yard) s = .next (t.replied .yard r))
            (∃ x, s.stage k = some x ∧
              let value := if set = 255 then none else some set
              exec (.assignInput .yard) s =
                .next (({ t with
                  stages := s.stages.set k (if i = 0 then { x with inputA := value } else { x with inputB := value }) } :
                  State).didReply .yard []))) ∧
      ∀ (s : State) (tag : Byte) (k auto dead : Nat), k < 256 → auto < 256 → dead < 256 →
        Offered s .yard 0x39 tag (be 1 k ++ be 1 auto ++ be 1 dead) →
          let t := s.judged .yard
          FirstDecides
            [(decide (7 < k), .refused .range 1 0xFF), (decide (1 < auto), .refused .range 2 0xFF),
              (decide (dead = 0 ∨ 10 < dead), .refused .range 3 0xFF)]
            (fun r => exec (.setStage .yard) s = .next (t.replied .yard r))
            (∃ x, s.stage k = some x ∧
              exec (.setStage .yard) s =
                .next (({ t with
                  stages := s.stages.set k { x with auto := auto == 1, deadTime := dead } } : State).didReply .yard []))) ∧
    ∀ (s : State) (p : Port) (tag : Byte) (k : Nat), k < 256 → Offered s p 0x3D tag (be 1 k) →
      let t := s.judged p
      (7 < k → exec (.readStage p) s = .next (t.replied p (.refused .range 1 0xFF))) ∧
        ∀ x, s.stage k = some x → ∃ state report context : List Byte,
          exec (.readStage p) s = .next (t.didReply p (state ++ report ++ context)) ∧
            state =
              be 1 k ++
                be 1 (match x.state with
                  | .unknown => 0
                  | .dark => 1
                  | .fed _ => 2
                  | .changing _ => 3
                  | .conflict => 4) ++
                be 1 (match x.activeInput with | none => 0 | some .a => 1 | some .b => 2) ++
                be 1 (match x.activeInput with
                  | none => 255
                  | some .a => x.inputA.getD 255
                  | some .b => x.inputB.getD 255) ++
                be 1 (x.inputA.getD 255) ++ be 1 (x.inputB.getD 255) ++ be 1 (flag x.auto) ++ be 1 x.deadTime ∧
            report =
              be 1
                  (flag (s.line.station .board k).isSome + 2 * flag x.lost + 4 * flag x.report.isSome +
                    8 * flag x.lossEpisode + 16 * flag (s.closeOutstanding k) +
                    32 * (match x.state with | .changing _ => 1 | _ => 0)) ++
                (match x.report with
                  | some r =>
                    be 1 (flag r.closedA + 2 * flag r.closedB + 4 * flag r.liveA + 8 * flag r.liveB) ++ be 2 r.demand
                  | none => be 1 0 ++ be 2 0) ++
                be 1 ((List.range 12).filter fun m => (s.line.station .meter m).any fun st => st.stage == k).length ∧
            ((∀ c, x.state ≠ .changing c) → context = List.replicate 18 0) ∧
            (∀ c, x.state = .changing c →
              context =
                be 1 (match c.kind with | .requested => 1 | .restore => 2 | .fuelLow => 3 | .supplyLoss => 4) ++
                  be 1 (match c.step with
                    | .preparing => 1
                    | .boundary => 2
                    | .opening => 3
                    | .dead => 4
                    | .closing => 5
                    | .reverting => 6) ++
                  be 1 (match c.source with | none => 0 | some .a => 1 | some .b => 2) ++
                  be 1 (match c.target with | .a => 1 | .b => 2) ++
                  be 1 ((match c.target with | .a => x.inputA | .b => x.inputB).getD 255) ++
                  be 1 (match c.source with
                    | none => 255
                    | some .a => x.inputA.getD 255
                    | some .b => x.inputB.getD 255) ++
                  be 2 (c.rate.getD 0) ++ be 1 c.stations.length ++
                  be 1 (c.stations.filter fun l => l.state == .ended).length ++
                  be 1 (match c.board with
                    | .none => 0
                    | .offered n =>
                      if s.line.waiting.any fun y => y.serial == n then 1
                      else match s.line.queued n with
                        | some y => if y.committed then 3 else 2
                        | none => 2
                    | .ended => 4) ++
                  be 1 (flag c.aborted) ++ be 2 (match c.timer with | some y => y.left | none => 0) ++
                  be 1 c.started.day ++ be 3 c.started.second) ∧
            (state ++ report ++ context).length = 31

/-- R126, R127, R202: CHANGE OVER and RESTORE STAGE: their checks in order, before them the refusal while a soft reset is
due; accepted, a changeover begins at PREPARING. R125: what headroom is. R136: ABORT CHANGEOVER, by the step of the
changeover. R137 to R139: automatic transfers: a supply loss begins an episode and calls for one transfer; a raise of
fuel-low calls for one on each FED stage of the set, ascending; the first qualification that fails is the reason that NO
ALTERNATE carries; a clearing withdraws FUEL LOW changeovers in PREPARING. While a soft reset is due none begins, and
that nothing is posted either is the model's choice (log entry 36); so is that no check of room stands before a CLOSE
INPUT that RESTORE STAGE or ABORT CHANGEOVER lets the sequencer offer at once (log entry 39); so is that the STAGE STATE of
a beginning changeover is posted before the work of PREPARING's entry (log entry 42). -/
def Obligations.ChangeoversBeginAndAbort : Prop :=
  ((∀ (s : State) (tag : Byte) (k : Nat), k < 256 → Offered s .yard 0x3A tag (be 1 k) →
        let t := s.judged .yard
        let active : Input := if (s.stage k).any fun x => x.state == .fed .b then .b else .a
        let target : Input := match active with | .a => .b | .b => .a
        let set := (s.stage k).bind fun x => match target with | .a => x.inputA | .b => x.inputB
        FirstDecides
          [(s.loader.resetDue, .refused .state 0 0xFF),
            (decide (7 < k), .refused .range 1 0xFF), (decide (s.line.station .board k = none), .refused .absent 1 0xFF),
            (!(s.stage k).any fun x => x.state == .fed .a || x.state == .fed .b, .refused .state 1 0xFF),
            ((s.stage k).any fun x => x.lost, .refused .state 1 0xFF), (decide (set = none), .refused .absent 1 0xFF),
            (decide (set.bind s.lease = none), .refused .notLeased 1 0xFF),
            ((set.bind fun i => s.windows.deniesSet .crew i).isSome,
              .refused .denied 1 ((set.bind fun i => s.windows.deniesSet .crew i).getD 0xFF)),
            (set.any fun i =>
                s.setStateOf i == some .faulted || s.setStateOf i == some .lost || s.setStateOf i == some .unknown,
              .refused .state 1 0xFF),
            (set.any fun i => s.setStateOf i == some .online && !s.headroom i k, .refused .noHeadroom 1 0xFF)]
          (fun r => exec (.changeOver .yard) s = .next (t.replied .yard r))
          (exec (.changeOver .yard) s =
            .next ((t.beginChangeover k .requested (some active) target).finish.didReply .yard []))) ∧
      (∀ (s : State) (tag : Byte) (k i : Nat), k < 256 → i < 256 →
        Offered s .yard 0x3C tag (be 1 k ++ be 1 i) →
        let t := s.judged .yard
        let target : Input := if i = 0 then .a else .b
        let set := (s.stage k).bind fun x => match target with | .a => x.inputA | .b => x.inputB
        FirstDecides
          [(s.loader.resetDue, .refused .state 0 0xFF),
            (decide (7 < k), .refused .range 1 0xFF), (decide (1 < i), .refused .range 2 0xFF),
            (decide (s.line.station .board k = none), .refused .absent 1 0xFF),
            (!(s.stage k).any fun x => x.state == .dark, .refused .state 1 0xFF),
            ((s.stage k).any fun x => x.lost, .refused .state 1 0xFF), (decide (set = none), .refused .absent 2 0xFF),
            (decide (set.bind s.lease = none), .refused .notLeased 2 0xFF),
            ((set.bind fun i => s.windows.deniesSet .crew i).isSome,
              .refused .denied 2 ((set.bind fun i => s.windows.deniesSet .crew i).getD 0xFF)),
            (set.any fun i =>
                s.setStateOf i == some .faulted || s.setStateOf i == some .lost || s.setStateOf i == some .unknown,
              .refused .state 2 0xFF),
            (set.any fun i => s.setStateOf i == some .online && !s.headroom i k, .refused .noHeadroom 2 0xFF)]
          (fun r => exec (.restoreStage .yard) s = .next (t.replied .yard r))
          (exec (.restoreStage .yard) s = .next ((t.beginChangeover k .restore none target).finish.didReply .yard []))) ∧
      (∀ (s : State) (i k : Nat),
        s.headroom i k = true ↔ ∃ l, s.lease i = some l ∧
          (((List.range 8).map fun j =>
              if j = k then 0
              else match s.stage j with
                | some x => if x.fedSet = some i ∨ x.incoming = some i then x.demand else 0
                | none => 0).sum) +
            (match s.stage k with | some x => x.demand | none => 0) ≤ l.rating) ∧
      ∀ (s : State) (k : Nat) (kind : ChangeKind) (source : Option Input) (target : Input),
        s.beginChangeover k kind source target =
          (s.enterStage k
            (.changing ⟨kind, source, target, .preparing, none, [], .none, false, none,
              ⟨s.clock.day, s.clock.second⟩⟩)).enterPreparing k) ∧
    (∀ (s : State) (tag : Byte) (k : Nat), k < 256 → Offered s .yard 0x3B tag (be 1 k) →
      let t := s.judged .yard
      (7 < k → exec (.abortChangeover .yard) s = .next (t.replied .yard (.refused .range 1 0xFF))) ∧
        (∀ x, s.stage k = some x → (∀ c, x.state ≠ .changing c) →
          exec (.abortChangeover .yard) s = .next (t.replied .yard (.refused .state 1 0xFF))) ∧
        ∀ x c, s.stage k = some x → x.state = .changing c →
          let back : StageState := match c.source with | some i => .fed i | none => .dark
          (c.step = .preparing ∨ c.step = .boundary ∨
                (c.step = .opening ∧ ∃ n, c.board = .offered n ∧ s.line.uncommitted n = true) →
              exec (.abortChangeover .yard) s = .next ((t.endChangeover k c .aborted back).finish.didReply .yard [])) ∧
            ((c.step = .opening ∧ (∀ n, c.board = .offered n → s.line.uncommitted n = false)) ∨ c.step = .closing ∨
                c.step = .reverting →
              exec (.abortChangeover .yard) s = .next (t.replied .yard (.refused .tooLate 0 0xFF))) ∧
            (c.step = .dead →
              exec (.abortChangeover .yard) s =
                .next ((({ t with
                  stages := s.stages.set k { x with state := .changing { c with aborted := true } } } : State).enterClose k
                    .reverting).finish.didReply .yard []))) ∧
    (∀ (s : State) (k : Nat) (x : Stage) (kind : ChangeKind), s.stage k = some x →
      ((∀ i, x.state ≠ .fed i) ∨ x.auto = false ∨ s.loader.resetDue = true → s.considerTransfer k kind = s) ∧
        ∀ i, x.state = .fed i → x.auto = true → s.loader.resetDue = false →
          let target : Input := match i with | .a => .b | .b => .a
          let set := match target with | .a => x.inputA | .b => x.inputB
          let state := set.bind s.setStateOf
          let reasons : List (Bool × Nat) :=
            [(x.lost, 7), (decide (set = none), 1), (decide (set.bind s.lease = none), 2),
              (set.any fun j => (s.set j).any fun r => r.fuelLow, 3),
              (set.any fun j => (s.windows.deniesSet .auto j).isSome, 4),
              (decide (state ≠ some .online ∧ state ≠ some .stopped ∧ state ≠ some .cooling ∧ state ≠ some .warming), 5),
              (decide (state = some .online) && !set.any fun j => s.headroom j k, 6)]
          ((∀ q ∈ reasons, q.1 = false) → s.considerTransfer k kind = s.beginChangeover k kind (some i) target) ∧
            ∀ before n after, reasons = before ++ (true, n) :: after → (∀ q ∈ before, q.1 = false) →
              s.considerTransfer k kind =
                s.post .noAlternate
                  (be 1 k ++
                    be 1 (match kind with | .requested => 1 | .restore => 2 | .fuelLow => 3 | .supplyLoss => 4) ++
                    be 1 (match target with | .a => 1 | .b => 2) ++ be 1 (set.getD 255) ++ be 1 n)) ∧
    (∀ (s : State) (k : Nat) (x : Stage), s.stage k = some x →
      ((∀ i, x.state ≠ .fed i) → s.judgeSupply k = s) ∧
        ∀ i, x.state = .fed i →
          let set := match i with | .a => x.inputA | .b => x.inputB
          let lost :=
            (∃ j, set = some j ∧ (s.setStateOf j = some .faulted ∨ s.setStateOf j = some .lost)) ∨
              ∃ r, x.report = some r ∧ (match i with | .a => r.liveA | .b => r.liveB) = false
          (¬lost → s.judgeSupply k = { s with stages := s.stages.set k { x with lossEpisode := false } }) ∧
            (lost → x.lossEpisode = true → s.judgeSupply k = s) ∧
            (lost → x.lossEpisode = false →
              s.judgeSupply k =
                ({ s with
                  stages := s.stages.set k { x with lossEpisode := true }
                  told := s.told.map fun m =>
                    match m with
                    | .fuelLowRaised j except => if set = some j then .fuelLowRaised j (k :: except) else m
                    | _ => m } : State).considerTransfer k .supplyLoss)) ∧
    (∀ (s : State) (i : Nat) (except : List Nat),
      s.fuelLowRaised i except =
        (List.range 8).foldl
          (fun u k =>
            match u.stage k with
            | some x =>
              match x.state with
              | .fed j =>
                if k ∉ except ∧ (match j with | .a => x.inputA | .b => x.inputB) = some i then
                  u.considerTransfer k .fuelLow
                else u
              | _ => u
            | none => u) s) ∧
    ∀ (s : State) (i : Nat),
      s.fuelLowCleared i =
        (List.range 8).foldl
          (fun u k =>
            match u.stage k with
            | some x =>
              match x.state with
              | .changing c =>
                if c.kind = .fuelLow ∧ c.step = .preparing ∧
                    (match c.source with | none => none | some .a => x.inputA | some .b => x.inputB) = some i then
                  u.endChangeover k c .withdrawn (match c.source with | some j => .fed j | none => .dark)
                else u
              | _ => u
            | none => u) s

/-- R121, R128: what the end of a changeover does to its stage: the commands that may still go are recalled, the
context goes, the stage takes its new state, STAGE STATE and CHANGEOVER ENDED are posted, and supply loss is to be
judged where the stage is FED. R73: what becoming feeding does to the set that a stage which becomes FED has; R71: which
sets feed. R129: what each step makes of the positions a board reports. R121, R128, R140: the codes of the stage states,
kinds, steps and outcomes. -/
def Obligations.ChangeoversEnd : Prop :=
  ((∀ q : StageState,
        q.value = match q with | .unknown => 0 | .dark => 1 | .fed _ => 2 | .changing _ => 3 | .conflict => 4) ∧
      (∀ q : ChangeKind, q.value = match q with | .requested => 1 | .restore => 2 | .fuelLow => 3 | .supplyLoss => 4) ∧
      (∀ q : ChangeStep,
        q.value =
          match q with
          | .preparing => 1
          | .boundary => 2
          | .opening => 3
          | .dead => 4
          | .closing => 5
          | .reverting => 6) ∧
      ∀ o : ChangeOutcome,
        o.value =
          match o with
          | .done => 1
          | .reverted => 2
          | .aborted => 3
          | .abortedReversed => 4
          | .noHeadroom => 5
          | .notReady => 6
          | .incomingFault => 7
          | .boardFault => 8
          | .bothLost => 9
          | .closeFailed => 10
          | .overridden => 11
          | .withdrawn => 12) ∧
  (∀ (s : State) (i : Nat),
      (s.set i = none → s.becomeFeeding i = s) ∧
        ∀ r, s.set i = some r →
          (r.state = .stopped ∨ (∃ n p, r.state = .cranking n p) →
              s.becomeFeeding i = (s.recallEngine i).enterSet i (.faulted .offWhileFeeding)) ∧
            (r.state = .warming → s.becomeFeeding i = s.enterSet i .online) ∧
            (r.state = .cooling →
              s.becomeFeeding i = (match r.awaited with | some n => s.recall n | none => s).enterSet i .online) ∧
            (r.state = .online ∨ r.state = .unknown ∨ (∃ c, r.state = .faulted c) ∨ (∃ q, r.state = .lost q) →
              s.becomeFeeding i = s)) ∧
    (∀ (s : State) (i : Nat),
      s.feeding i = true ↔ ∃ k x j, s.stage k = some x ∧
        (x.state = .fed j ∨
          ∃ c, x.state = .changing c ∧ c.source = some j ∧ (c.step = .preparing ∨ c.step = .boundary ∨ c.step = .opening)) ∧
        (match j with | .a => x.inputA | .b => x.inputB) = some i) ∧
  (∀ (s : State) (k : Nat) (x : Stage) (c : Changeover) (o : ChangeOutcome) (after : StageState),
      s.stage k = some x → x.state = .changing c → (∀ q, after ≠ .changing q) →
        ∃ y, (s.endChangeover k c o after).stage k = some y ∧ y.state = after ∧ y.inputA = x.inputA ∧
          y.inputB = x.inputB ∧ y.auto = x.auto ∧ y.deadTime = x.deadTime ∧ y.report = x.report ∧ y.lost = x.lost ∧
          (∀ j, j ≠ k → (s.endChangeover k c o after).stage j = s.stage j) ∧
          (s.endChangeover k c o after).deliveries = s.deliveries ∧
          (s.endChangeover k c o after).billing = s.billing ∧ (s.endChangeover k c o after).tally = s.tally ∧
          ((∃ i, after = .fed i) → Told.judgeSupply k ∈ (s.endChangeover k c o after).told)) ∧
    (∀ (s : State) (k : Nat) (x : Stage) (c : Changeover) (o : ChangeOutcome) (after : StageState), s.stage k = some x →
      let set := fun (i : Option Input) => match i with | none => none | some .a => x.inputA | some .b => x.inputB
      let input := fun (i : Option Input) => be 1 (match i with | none => 0 | some .a => 1 | some .b => 2)
      let cancelled :=
        if c.step = .preparing then (match set (some c.target) with | some i => s.cancelStartOrder i | none => s) else s
      let recalled :=
        ((match c.board with | .offered n => [n] | _ => []) ++
          (c.stations.filter fun l => l.state == .awaitingReading).map fun l => l.serial).foldl State.recall cancelled
      let ended :=
        (recalled.enterStage k after).post .changeoverEnded
          (be 1 k ++ be 1 c.kind.value ++ be 1 o.value ++ be 1 c.step.value ++ input c.source ++ input (some c.target) ++
            be 1 ((set (some c.target)).getD 255) ++ be 1 ((set c.source).getD 255) ++ be 1 c.started.day ++
            be 3 c.started.second)
      s.endChangeover k c o after = (match after with | .fed _ => ended.tell (.judgeSupply k) | _ => ended)) ∧
    (∀ (s : State) (k : Nat) (x : Stage) (q : StageState), s.stage k = some x →
      let y : Stage :=
        { x with state := q, lossEpisode := x.lossEpisode && (match q with | .fed _ => true | _ => false) }
      let u : State := { s with stages := s.stages.set k y }
      let fed := match q with | .fed _ => (match y.activeSet with | some i => u.becomeFeeding i | none => u) | _ => u
      s.enterStage k q =
        if x.state.value = y.state.value ∧ x.activeInput = y.activeInput then u
        else
          fed.post .stageState
            (be 1 k ++ be 1 y.state.value ++ be 1 x.state.value ++
              be 1 (match y.activeInput with | none => 0 | some .a => 1 | some .b => 2) ++ be 1 (y.activeSet.getD 255))) ∧
    (∀ (target : Input) (a b : Bool),
      positionOf target a b =
        (if a = b then (if a then Position.x else .n) else if (a = true ↔ target = .a) then .t else .f)) ∧
    ∀ (p : Position) (restore offered : Bool),
      (boardVerdict .preparing false offered p = if p = .f then .expected else .overridden) ∧
        (boardVerdict .boundary restore offered p = if p = .f then .expected else .overridden) ∧
        (boardVerdict .preparing true offered p = if p = .n then .expected else .overridden) ∧
        (boardVerdict .opening restore offered p =
          if p = .n then .toDead else if p = .f then .expected else .overridden) ∧
        (boardVerdict .dead restore offered p =
          if p = .n then .expected else if p = .x then .overridden else .held) ∧
        (boardVerdict .closing restore false p =
          match p with | .n => .interlockFree | .f => .held | .t => .success | .x => .overridden) ∧
        (boardVerdict .closing restore true p =
          match p with | .n => .expected | .f => .overridden | .t => .success | .x => .overridden) ∧
        (boardVerdict .reverting restore false p =
          match p with | .n => .interlockFree | .f => .success | .t => .held | .x => .overridden) ∧
        (boardVerdict .reverting restore true p =
          match p with | .n => .expected | .f => .success | .t => .overridden | .x => .overridden)

/-- R130 to R135: the steps of a changeover. The expiries of its three timers; before its expiry nothing happens. What
the entry to each step does: PREPARING starts the prepare timer and deals with the incoming set by its state; BOUNDARY
captures the outgoing rate and offers READ COUNTERS to the stage's meters, ascending; OPENING, entered when every
station is ended, offers the OPEN INPUT; DEAD shows NONE and judges the incoming set; CLOSING and REVERTING offer their
CLOSE INPUT only when the latest report shows both inputs open and no close of the stage is outstanding, else the
confirm timer runs; the command is then offered at the first moment both hold. R131, R132, R134, R135: what the outcome of
the step's OPEN or CLOSE INPUT and of a READ COUNTERS does, R164: the request handed to the stage's stream, and its end; an
outcome of an ended step is discarded, but the end of a close may free an interlock. What a change of the incoming set's state does in each step, the changeovers it is incoming for and
the stages it feeds being taken in ascending order (among several changeovers the model's choice, log entry 33). That a
step begins with no board command (log entry 32), that a failed set in CLOSING before the offer ends nothing (log entry
16), and that a timer at 0 has expired (log entry 3), is the model's. -/
def Obligations.StageTimersAndInterlock : Prop :=
  (∀ (s : State) (k : Nat) (x : Stage) (c : Changeover), s.stage k = some x → x.state = .changing c →
      let back : StageState := match c.source with | some i => .fed i | none => .dark
      let outgoingOnline :=
        ∃ i set, c.source = some i ∧ (match i with | .a => x.inputA | .b => x.inputB) = some set ∧
          s.setStateOf set = some .online
      (c.timer = some ⟨.prepare, 0⟩ → c.step = .preparing →
          exec (.prepareExpiry k) s = .next (s.endChangeover k c .notReady back).finish.transmit) ∧
        (c.timer = some ⟨.confirm, 0⟩ → c.step = .opening →
          exec (.confirmExpiry k) s =
            .next (s.endChangeover k c .boardFault (if x.lost then .unknown else back)).finish.transmit) ∧
        (c.timer = some ⟨.confirm, 0⟩ → c.step = .closing → c.board = .none →
          exec (.confirmExpiry k) s = .next (s.endChangeover k c .boardFault .dark).finish.transmit) ∧
        (c.timer = some ⟨.confirm, 0⟩ → c.step = .closing → c.board ≠ .none →
          (c.kind ≠ .restore ∧ outgoingOnline →
              exec (.confirmExpiry k) s = .next (s.enterClose k .reverting).finish.transmit) ∧
            (c.kind = .restore ∨ ¬outgoingOnline →
              exec (.confirmExpiry k) s = .next (s.endChangeover k c .closeFailed .dark).finish.transmit)) ∧
        (c.timer = some ⟨.confirm, 0⟩ → c.step = .reverting →
          exec (.confirmExpiry k) s = .next (s.endChangeover k c .closeFailed .dark).finish.transmit) ∧
        (c.timer = some ⟨.dead, 0⟩ → c.step = .dead →
          exec (.deadTimeExpiry k) s = .next (s.enterClose k .closing).finish.transmit) ∧
        ((∀ j, c.timer ≠ some ⟨j, 0⟩) →
          exec (.prepareExpiry k) s = .next s.finish.transmit ∧ exec (.confirmExpiry k) s = .next s.finish.transmit ∧
            exec (.deadTimeExpiry k) s = .next s.finish.transmit)) ∧
    (∀ (s : State) (k : Nat) (x : Stage) (c : Changeover), s.stage k = some x → x.state = .changing c →
      let set := fun (i : Option Input) => match i with | none => none | some .a => x.inputA | some .b => x.inputB
      let back : StageState := match c.source with | some i => .fed i | none => .dark
      let entered := fun (c : Changeover) => ({ s with stages := s.stages.set k { x with state := .changing c } } : State)
      let meters := (List.range 12).filter fun m => (s.line.station .meter m).any fun st => st.stage == k
      (let prepared : Changeover := { c with timer := some ⟨.prepare, 1800⟩ }
        let u := entered prepared
        (set (some c.target) = none → s.enterPreparing k = u) ∧
          ∀ i, set (some c.target) = some i →
            (s.setStateOf i = some .stopped ∨ s.setStateOf i = some .cooling → s.enterPreparing k = u.startOrder i) ∧
              (s.setStateOf i = some .online → s.enterPreparing k = u.incomingOnline k prepared i) ∧
              (s.setStateOf i ≠ some .stopped → s.setStateOf i ≠ some .cooling → s.setStateOf i ≠ some .online →
                s.enterPreparing k = u)) ∧
        (∀ i,
          (s.headroom i k = false → s.incomingOnline k c i = s.endChangeover k c .noHeadroom back) ∧
            (s.headroom i k = true → c.kind = .restore → s.incomingOnline k c i = s.enterClose k .closing) ∧
            (s.headroom i k = true → c.kind ≠ .restore → s.incomingOnline k c i = s.enterBoundary k)) ∧
        s.enterBoundary k =
          ((entered { c with
            step := .boundary, timer := none, board := .none, stations := [],
            rate := some (match set c.source with | some i => s.rateInUse i | none => 0) }).listStations k meters).tell
              (.boundaryCheck k) ∧
        s.listStations k [] = s ∧
        (∀ m more,
          s.listStations k (m :: more) =
            ((entered { c with stations := c.stations ++ [⟨m, s.line.nextSerial, .awaitingReading⟩] }).offer .readCounters
              m .sequence).listStations k more) ∧
        (c.step = .boundary → (∀ l ∈ c.stations, l.state = .ended) → s.boundaryCheck k = s.enterOpening k) ∧
        (c.step ≠ .boundary ∨ (∃ l ∈ c.stations, l.state ≠ .ended) → s.boundaryCheck k = s) ∧
        (∀ i, c.source = some i →
          s.enterOpening k =
            (entered { c with step := .opening, timer := none, board := .offered s.line.nextSerial }).offer (.openInput i) k
              .sequence) ∧
        (let dead : Changeover := { c with step := .dead, timer := none, board := .none }
          let u := (entered dead).post .stageState (be 1 k ++ be 1 3 ++ be 1 3 ++ be 1 0 ++ be 1 255)
          let failed :=
            ∃ i, set (some c.target) = some i ∧ (s.setStateOf i = some .faulted ∨ s.setStateOf i = some .lost)
          (failed → s.enterDead k = u.incomingFailed k dead) ∧
            (¬failed →
              s.enterDead k =
                { u with
                  stages := s.stages.set k
                    { x with state := .changing { dead with timer := some ⟨.dead, 10 * x.deadTime⟩ } } })) ∧
        (let outgoingOnline := ∃ i, set c.source = some i ∧ s.setStateOf i = some .online
          let uncommitted := ∃ n, c.board = .offered n ∧ s.line.uncommitted n = true
          (c.step = .preparing ∨ c.step = .boundary ∨ (c.step = .opening ∧ uncommitted) →
              s.incomingFailed k c = s.endChangeover k c .incomingFault back) ∧
            (c.step = .dead → outgoingOnline → s.incomingFailed k c = s.enterClose k .reverting) ∧
            (c.step = .dead → ¬outgoingOnline → s.incomingFailed k c = s.endChangeover k c .bothLost .dark) ∧
            (∀ n, c.step = .closing → c.board = .offered n → s.line.uncommitted n = true →
              s.incomingFailed k c =
                if c.kind ≠ .restore ∧ outgoingOnline then (s.recall n).enterClose k .reverting
                else (s.recall n).endChangeover k c .closeFailed .dark) ∧
            ((c.step = .opening ∨ c.step = .closing) ∧ ¬uncommitted ∨ c.step = .reverting →
              s.incomingFailed k c = s)) ∧
        ∀ i,
          (s.setStateOf i = some .faulted ∨ s.setStateOf i = some .lost →
              s.incomingChanged k c i = s.incomingFailed k c) ∧
            (s.setStateOf i = some .online → c.step = .preparing →
              s.incomingChanged k c i = s.incomingOnline k c i) ∧
            (s.setStateOf i ≠ some .faulted → s.setStateOf i ≠ some .lost →
              s.setStateOf i ≠ some .online ∨ c.step ≠ .preparing → s.incomingChanged k c i = s)) ∧
    (∀ (s : State) (i : Nat),
      s.setChanged i =
        (List.range 8).foldl
          (fun u k =>
            match u.stage k with
            | some x =>
              match x.state with
              | .changing c =>
                if (match c.target with | .a => x.inputA | .b => x.inputB) = some i then u.incomingChanged k c i else u
              | .fed j => if (match j with | .a => x.inputA | .b => x.inputB) = some i then u.judgeSupply k else u
              | _ => u
            | none => u) s) ∧
    (∀ (s : State) (i : Nat),
      (s.setStateOf i = some .stopped → s.startOrder i = s.startFromStopped i) ∧
        (∀ r, s.set i = some r → r.state = .cooling →
          (r.timer ≠ none ∨ s.awaitsUncommitted i = true → s.startOrder i = s.returnOnline i) ∧
            (r.timer = none → s.awaitsUncommitted i = false →
              s.startOrder i = { s with sets := s.sets.set i (some { r with startPending := true }) })) ∧
        (s.setStateOf i ≠ some .stopped → s.setStateOf i ≠ some .cooling → s.startOrder i = s)) ∧
    (∀ (s : State) (k : Nat) (x : Stage) (c : Changeover) (q : ChangeStep) (i : Input), s.stage k = some x →
      x.state = .changing c → (q = .closing ∧ i = c.target) ∨ (q = .reverting ∧ c.source = some i) →
        let free :=
          (∃ r, x.report = some r ∧ r.closedA = false ∧ r.closedB = false) ∧
            ∀ y ∈ s.line.queue ++ s.line.waiting, y.object = k → y.order ≠ .closeInput .a ∧ y.order ≠ .closeInput .b
        let entered := fun (board : BoardOrder) (timer : Option StageTimer) =>
          ({ s with
            stages := s.stages.set k
              { x with state := .changing { c with step := q, board := board, timer := timer } } } : State)
        (free → s.enterClose k q = (entered (.offered s.line.nextSerial) none).offer (.closeInput i) k .sequence) ∧
          (¬free → s.enterClose k q = entered .none (some ⟨.confirm, 20⟩))) ∧
    (∀ (s : State) (k : Nat) (x : Stage), s.stage k = some x →
      ((∀ c, x.state ≠ .changing c) → s.tryClose k = s) ∧
        ∀ c, x.state = .changing c →
          let free :=
            (∃ r, x.report = some r ∧ r.closedA = false ∧ r.closedB = false) ∧
              ∀ y ∈ s.line.queue ++ s.line.waiting, y.object = k → y.order ≠ .closeInput .a ∧ y.order ≠ .closeInput .b
          (∀ i, (c.step = .closing ∧ i = c.target) ∨ (c.step = .reverting ∧ c.source = some i) → c.board = .none → free →
              s.tryClose k =
                ({ s with
                  stages := s.stages.set k
                    { x with
                      state := .changing { c with board := .offered s.line.nextSerial, timer := none } } } : State).offer
                        (.closeInput i) k .sequence) ∧
            ((c.step ≠ .closing ∧ c.step ≠ .reverting) ∨ c.board ≠ .none ∨ ¬free → s.tryClose k = s)) ∧
    (∀ (s : State) (cmd : Command) (o : CommandOutcome) (x : Stage), s.stage cmd.object = some x →
      let k := cmd.object
      ((∀ c, x.state ≠ .changing c) → s.boardOutcome cmd o = s) ∧
        ∀ c, x.state = .changing c →
          let back : StageState := match c.source with | some i => .fed i | none => .dark
          let outgoingOnline :=
            ∃ i set, c.source = some i ∧ (match i with | .a => x.inputA | .b => x.inputB) = some set ∧
              s.setStateOf set = some .online
          (c.board ≠ .offered cmd.serial → s.boardOutcome cmd o = s.tryClose k) ∧
            (c.board = .offered cmd.serial →
              (o = .done →
                  s.boardOutcome cmd o =
                    { s with
                      stages := s.stages.set k
                        { x with state := .changing { c with board := .ended, timer := some ⟨.confirm, 20⟩ } } }) ∧
                (o = .removed → s.boardOutcome cmd o = s) ∧
                (o = .noAnswer →
                  (c.step = .opening →
                      s.boardOutcome cmd o =
                        s.endChangeover k c .boardFault (if x.lost = true ∧ cmd.committed = true then .unknown else back)) ∧
                    (c.step = .closing →
                      (c.kind ≠ .restore ∧ outgoingOnline → s.boardOutcome cmd o = s.enterClose k .reverting) ∧
                        (c.kind = .restore ∨ ¬outgoingOnline →
                          s.boardOutcome cmd o = s.endChangeover k { c with board := .ended } .closeFailed .dark)) ∧
                    (c.step = .reverting → s.boardOutcome cmd o = s.endChangeover k c .closeFailed .dark) ∧
                    (c.step = .preparing ∨ c.step = .boundary ∨ c.step = .dead → s.boardOutcome cmd o = s)))) ∧
    (∀ (s : State) (serial : Nat) (q : ListedState),
      let lists := fun k : Nat =>
        ∃ x c, s.stage k = some x ∧ x.state = .changing c ∧ c.step = .boundary ∧
          ∃ l ∈ c.stations, l.serial = serial ∧ l.state = q
      ((∀ k, ¬lists k) →
          (q = .awaitingReading → ∀ cmd o, cmd.serial = serial → s.countersOutcome cmd o = s) ∧
            (q = .awaitingBilling → ∀ r, r.serial = serial → s.boundaryEnded r = s)) ∧
        ∀ k x c, lists k → (∀ j < k, ¬lists j) → s.stage k = some x → x.state = .changing c →
          let listed := fun (v : State) (state : ListedState) =>
            ({ v with
              stages := v.stages.set k
                { x with
                  state := .changing { c with
                    stations := c.stations.map fun l => if l.serial = serial then { l with state := state } else l } } } :
              State)
          let outgoing := match c.source with | none => none | some .a => x.inputA | some .b => x.inputB
          (q = .awaitingReading → ∀ cmd o, cmd.serial = serial →
              s.countersOutcome cmd o =
                match o with
                | .done =>
                  (listed s .awaitingBilling).handOver ⟨k, cmd.object, outgoing, c.rate.getD 0, serial⟩
                | .noAnswer => (listed (s.straddle cmd.object) .ended).tell (.boundaryCheck k)
                | .removed => (listed s .ended).tell (.boundaryCheck k)) ∧
            (q = .awaitingBilling → ∀ r, r.serial = serial →
              s.boundaryEnded r = (listed s .ended).tell (.boundaryCheck k))) ∧
    ∀ (s : State) (r : BoundaryRequest) (x : Stream), s.billing.streams.get r.stage = some x →
      let u : State :=
        { s with
          billing := { s.billing with
            streams := s.billing.streams.set r.stage { x with requests := x.requests ++ [r] } } }
      (x.requests = [] → s.handOver r = u.tell (.bill (.stream r.stage))) ∧ (x.requests ≠ [] → s.handOver r = u)

/-! ## Circuits and the circuit map (08) -/

/-- R154: INSTALL MAP: its checks in order, then the place: the entry that names the circuit; else the lowest free
entry; else the first unpinned entry from the pointer on, the pointer moving past it; else FULL. R155: CLEAR MAP in
its three forms; the command of each form judges the requests of its form, and any of them one of a form above 2 (log
entry 7). -/
def Obligations.MapEntriesArePlacedAndFreed : Prop :=
  (∀ (s : State) (tag : Byte) (c a levy pinned : Nat), c < 256 → a < 65536 → levy < 256 →
      pinned < 256 → Offered s .office 0x40 tag (be 1 c ++ be 2 a ++ be 1 levy ++ be 1 pinned) →
        let t := s.judged .office
        let entry := fun n => s.billing.map.get n
        let placed := fun (n pointer : Nat) =>
          ({ t with
            billing := { s.billing with
              map := s.billing.map.set n (some ⟨c, a, levy == 1, pinned == 1⟩), pointer := pointer } } : State)
        FirstDecides
          [(decide (95 < c), .refused .range 1 0xFF), (decide (1023 < a), .refused .range 2 0xFF),
            (decide (1 < levy), .refused .range 3 0xFF), (decide (1 < pinned), .refused .range 4 0xFF),
            (!(if a < 512 then s.tally.bank0 else s.tally.bank1), .refused .absent 2 0xFF),
            ((s.windows.denies .office a).isSome, .refused .denied 2 ((s.windows.denies .office a).getD 0xFF))]
          (fun r => exec (.installMap .office) s = .next (t.replied .office r))
          ((∀ n x, entry n = some (some x) → x.circuit = c →
              (∀ j < n, ∀ y, entry j = some (some y) → y.circuit ≠ c) →
                exec (.installMap .office) s =
                  .next ((placed n s.billing.pointer).didReply .office (be 1 n ++ be 1 255))) ∧
            ((∀ j y, entry j = some (some y) → y.circuit ≠ c) →
              (∀ n, entry n = some none → (∀ j < n, ∃ y, entry j = some (some y)) →
                  exec (.installMap .office) s =
                    .next ((placed n s.billing.pointer).didReply .office (be 1 n ++ be 1 255))) ∧
                ((∀ j < 32, ∃ y, entry j = some (some y)) →
                  (∀ k x, k < 32 → entry ((s.billing.pointer + k) % 32) = some (some x) → x.pinned = false →
                      (∀ j < k, ∀ y, entry ((s.billing.pointer + j) % 32) = some (some y) → y.pinned = true) →
                        let n := (s.billing.pointer + k) % 32
                        exec (.installMap .office) s =
                          .next ((placed n ((n + 1) % 32)).didReply .office (be 1 n ++ be 1 x.circuit))) ∧
                    ((∀ j y, entry j = some (some y) → y.pinned = true) →
                      exec (.installMap .office) s = .next (t.replied .office (.refused .full 0 0xFF))))))) ∧
    ∀ (s : State) (tag : Byte) (form c : Nat), form < 256 → c < 256 →
      Offered s .office 0x41 tag (be 1 form ++ be 1 c) →
        let t := s.judged .office
        let freed := fun (p : MapEntry → Bool) => (s.billing.map.cells.filter fun e => e.any p).length
        let cleared := fun (p : MapEntry → Bool) (pointer : Nat) =>
          ({ t with
            billing := { s.billing with
              map := s.billing.map.map fun e => e.filter fun x => !p x, pointer := pointer } } : State)
        (2 < form →
            exec (.clearMapAll .office) s = .next (t.replied .office (.refused .range 1 0xFF)) ∧
              exec (.clearMapUnpinned .office) s = .next (t.replied .office (.refused .range 1 0xFF)) ∧
              exec (.clearMapCircuit .office) s = .next (t.replied .office (.refused .range 1 0xFF))) ∧
          (form = 0 →
            (c ≠ 0 → exec (.clearMapAll .office) s = .next (t.replied .office (.refused .range 2 0xFF))) ∧
              (c = 0 →
                exec (.clearMapAll .office) s =
                  .next ((cleared (fun _ => true) 0).didReply .office (be 1 (freed fun _ => true))))) ∧
          (form = 1 →
            (c ≠ 0 → exec (.clearMapUnpinned .office) s = .next (t.replied .office (.refused .range 2 0xFF))) ∧
              (c = 0 →
                exec (.clearMapUnpinned .office) s =
                  .next ((cleared (fun x => !x.pinned) s.billing.pointer).didReply .office
                    (be 1 (freed fun x => !x.pinned))))) ∧
          (form = 2 →
            (95 < c → exec (.clearMapCircuit .office) s = .next (t.replied .office (.refused .range 2 0xFF))) ∧
              (c ≤ 95 → (∀ j y, s.billing.map.get j = some (some y) → y.circuit ≠ c) →
                exec (.clearMapCircuit .office) s = .next (t.replied .office (.refused .absent 2 0xFF))) ∧
              (c ≤ 95 → (∃ j y, s.billing.map.get j = some (some y) ∧ y.circuit = c) →
                exec (.clearMapCircuit .office) s =
                  .next ((cleared (fun x => x.circuit == c) s.billing.pointer).didReply .office
                    (be 1 (freed fun x => x.circuit == c)))))

/-- R153, R156, R157: READ MISS, which empties the latch, READ MAP and READ CIRCUIT, which change nothing. That READ MAP
carries 0 as the flags byte of a free entry is the model's choice (log entry 45). -/
def Obligations.MapAndCircuitsAreRead : Prop :=
  (∀ (s : State) (tag : Byte), Offered s .office 0x42 tag [] →
      exec (.readMiss .office) s =
        .next (({ s.judged .office with billing := { s.billing with miss := none } } : State).didReply
          .office
          ((match s.billing.miss with
            | some l =>
              be 1 1 ++ be 1 l.circuit ++ be 1 l.stage ++ be 4 l.delta.toNat ++ be 1 l.stamp.day ++ be 3 l.stamp.second ++
                be 1 (flag l.more)
            | none => List.replicate 12 0) ++
            be 1 (s.billing.circuits.cells.filter fun r => r.state == .held .miss).length))) ∧
    (∀ (s : State) (p : Port) (tag : Byte) (first : Nat), first < 256 →
      Offered s p 0x43 tag (be 1 first) →
        let t := s.judged p
        (31 < first → exec (.readMap p) s = .next (t.replied p (.refused .range 1 0xFF))) ∧
          (first ≤ 31 →
            exec (.readMap p) s =
              .next (t.didReply p
                (be 1 s.billing.pointer ++ be 1 (s.billing.map.cells.filter fun e => e.isSome).length ++
                  ((List.range (min 16 (32 - first))).flatMap fun j =>
                    match s.billing.map.get (first + j) with
                    | some (some e) => be 1 e.circuit ++ be 2 e.account ++ be 1 (flag e.levy + 2 * flag e.pinned)
                    | _ => be 1 255 ++ be 2 0 ++ be 1 0))))) ∧
    ∀ (s : State) (p : Port) (tag : Byte) (c : Nat), c < 256 → Offered s p 0x44 tag (be 1 c) →
      let t := s.judged p
      (95 < c → exec (.readCircuit p) s = .next (t.replied p (.refused .range 1 0xFF))) ∧
        ∀ r, s.circuit c = some r → ∃ mapped account entry : Nat,
          exec (.readCircuit p) s =
              .next (t.didReply p
                (be 1 c ++ be 1 (c / 8) ++ be 1 r.stage ++ be 1 (flag (s.line.station .meter (c / 8)).isSome) ++
                  be 1 (match r.state with | .unread => 0 | .current => 1 | .held _ => 2) ++
                  be 1 (match r.state with
                    | .held .miss => 1
                    | .held .quarantine => 2
                    | .held .unreadable => 3
                    | .held .denied => 4
                    | _ => 0) ++
                  be 1
                    (flag r.straddled + 2 * flag r.implausible +
                      4 * flag (s.billing.inFlight.any fun b => b.circuit == c) + 8 * mapped) ++
                  be 4 r.base.toNat ++ be 4 r.last.toNat ++ be 1 r.stamp.day ++ be 3 r.stamp.second ++
                  be 4 r.cursor.toNat ++ be 4 (r.last - r.cursor).toNat ++ be 8 r.credited.toNat ++
                  be 8 r.rejected.toNat ++ be 2 account ++ be 1 entry)) ∧
            ((∀ j y, s.billing.map.get j = some (some y) → y.circuit ≠ c) → mapped = 0 ∧ account = 0 ∧ entry = 255) ∧
            ∀ n x, s.billing.map.get n = some (some x) → x.circuit = c →
              (∀ j < n, ∀ y, s.billing.map.get j = some (some y) → y.circuit ≠ c) →
                mapped = 1 ∧ account = x.account ∧ entry = n

/-- R146 to R150, R152, R161, R162: a circuit's billing: no effect on an UNREAD circuit or one with nothing unbilled;
an implausible delta is rejected; a miss and a refused account hold the circuit; else an account update joins the work
list and the billing is in flight. What the outcome of the update does to the circuit. R143 to R145, R151: what a
METER report, an enrolment or removal, and a straddling do to the circuits of their station; no other circuit changes.
R148: the entry that is hit: the first used entry that names the circuit, none where no used entry names it. That a
repeat miss leaves the stage of the latch as it is, is the model's choice (log entry 35). -/
def Obligations.CircuitsAreBilled : Prop :=
  (∀ (b : BillingEngine) (c : Nat),
      (∀ n, b.entryOf c = some n ↔
        (∃ e, b.map.get n = some (some e) ∧ e.circuit = c) ∧
          ∀ j < n, ∀ e, b.map.get j = some (some e) → e.circuit ≠ c) ∧
        (b.entryOf c = none ↔ ∀ j e, b.map.get j = some (some e) → e.circuit ≠ c)) ∧
    ((∀ (s : State) (src : Source) (c : Nat) (r : Circuit), s.circuit c = some r →
        let delta := r.last - r.cursor
        let held := fun (s : State) (cause : HoldCause) =>
          ({ s with
            billing := { s.billing with
              circuits := s.billing.circuits.set c { r with state := .held cause } } } : State)
        (r.state = .unread ∨ delta = 0 → s.runBilling src c = (s, false)) ∧
          (r.state ≠ .unread → s.clock.limit < delta.toNat →
            s.runBilling src c =
              (({ s with
                billing := { s.billing with
                  circuits := s.billing.circuits.set c
                    { r with
                      state := .current, straddled := false, implausible := true,
                      rejected := r.rejected + delta.setWidth 64, cursor := r.last } } } : State).post .implausible
                (be 1 c ++ be 1 r.stage ++ be 4 delta.toNat ++ be 4 r.last.toNat ++ be 4 s.clock.limit), false)) ∧
          (r.state ≠ .unread → delta ≠ 0 → delta.toNat ≤ s.clock.limit →
            (s.billing.entryOf c = none →
                (s.billing.miss = none →
                    s.runBilling src c =
                      (({ held s .miss with
                        billing := { (held s .miss).billing with
                          miss := some ⟨c, r.stage, delta, ⟨s.clock.day, s.clock.second⟩, false⟩ } } : State).post .mapMiss
                        (be 1 c ++ be 1 r.stage ++ be 4 delta.toNat), false)) ∧
                  ∀ l, s.billing.miss = some l →
                    s.runBilling src c =
                      ({ held s .miss with
                        billing := { (held s .miss).billing with
                          miss := some
                            (if l.circuit = c then { l with delta := delta, stamp := ⟨s.clock.day, s.clock.second⟩ }
                              else { l with more := true }) } }, false)) ∧
              ∀ n e, s.billing.entryOf c = some n → s.billing.map.get n = some (some e) →
                let hit : State :=
                  { s with
                    billing := { s.billing with
                      pointer := if n = s.billing.pointer then (n + 1) % 32 else s.billing.pointer } }
                (e.account ∈ s.tally.quarantine → s.runBilling src c = (held hit .quarantine, false)) ∧
                  (e.account ∉ s.tally.quarantine → s.windows.denies .engine e.account ≠ none →
                    s.runBilling src c = (held hit .denied, false)) ∧
                  (e.account ∉ s.tally.quarantine → s.windows.denies .engine e.account = none →
                    ∀ rate,
                      rate =
                          (match src with
                            | .sweep =>
                              (match (s.stage r.stage).bind Stage.activeSet with
                                | some i => s.rateInUse i
                                | none => 0)
                            | .stream k =>
                              (match s.billing.streams.get k with
                                | some ⟨q :: _, _⟩ => q.rate
                                | _ => 0)) →
                        s.runBilling src c =
                          ({ hit with
                            billing := { hit.billing with
                              inFlight := s.billing.inFlight ++ [⟨src, c, r.last, delta, r.straddled, false⟩] }
                            tally := { s.tally with
                              work := s.tally.work ++
                                [.update
                                  ⟨src, e.account, delta, if e.levy then delta.toNat * rate / 1000 else 0, r.straddled,
                                    s.windows.tag e.account⟩] } }, true)))) ∧
      ∀ (s : State) (b : Billing) (r : Circuit), s.circuit b.circuit = some r →
        let circuit := fun (q : Circuit) =>
          ({ s with billing := { s.billing with circuits := s.billing.circuits.set b.circuit q } } : State)
        (b.stale = true → ∀ o, s.applyOutcome b o = s) ∧
          (b.stale = false →
            s.applyOutcome b .performed =
                circuit
                  { r with
                    state := .current, implausible := false, straddled := r.straddled && !b.straddle,
                    credited := r.credited + b.delta.setWidth 64, cursor := b.reading } ∧
              s.applyOutcome b .unreadable = circuit { r with state := .held .unreadable } ∧
              s.applyOutcome b .quarantined = circuit { r with state := .held .quarantine })) ∧
    (∀ (s : State) (m c : Nat) (counters : List Word32) (r : Circuit) (x : Word32), s.circuit c = some r → c / 8 = m →
        counters[c % 8]? = some x →
        (s.applyMeterReport m counters).circuit c =
          some (if r.state = .unread then
              { r with state := .current, base := x, cursor := x, last := x, stamp := ⟨s.clock.day, s.clock.second⟩ }
            else { r with last := x, stamp := ⟨s.clock.day, s.clock.second⟩ })) ∧
      (∀ (s : State) (m c : Nat) (stage : Option Nat) (r : Circuit), s.circuit c = some r → c / 8 = m →
        (s.unreadStation m stage).circuit c =
          some ⟨(match stage with | some k => k | none => r.stage), .unread, false, false, 0, 0, ⟨0, 0⟩, 0, 0, 0⟩) ∧
      (∀ (s : State) (m c : Nat) (r : Circuit), s.circuit c = some r → c / 8 = m →
        (s.straddle m).circuit c = some (if r.state = .unread then r else { r with straddled := true })) ∧
      (∀ (s : State) (m c : Nat) (counters : List Word32) (stage : Option Nat), c / 8 ≠ m →
        (s.applyMeterReport m counters).circuit c = s.circuit c ∧ (s.unreadStation m stage).circuit c = s.circuit c ∧
          (s.straddle m).circuit c = s.circuit c) ∧
      ∀ (s : State) (m : Nat) (stage : Option Nat),
        (s.unreadStation m stage).billing.inFlight =
          s.billing.inFlight.map fun b => if b.circuit / 8 = m then { b with stale := true } else b

/-! ## Accumulation, the total cache and tally memory (09, 10) -/

/-- R177, R178: the check code: the signatures of the 72 positions, the check over the data, stored inverted, and what
each syndrome makes of a word. So a stored word reads good; any one of its 72 bits flipped is corrected; any two flipped
are uncorrectable, and so is a word never written. The six words of a record, each high byte first with its check, from
byte 54 × account on (which is byte 54 × (account mod 512) of its bank). A record written reads back as it was written;
one written to a memory that does not answer is lost, and such a memory reads as zeros. -/
def Obligations.CheckCodeCorrectsOneBit : Prop :=
  (∀ d : BitVec 64,
      let signatures : List Nat :=
        ((List.range 256).filter fun v => ((List.range 8).filter fun j => v.testBit j).length == 3) ++
          [0x1F, 0x2F, 0x37, 0x3B, 0x3D, 0x3E, 0x4F, 0x57]
      let signature := fun i => BitVec.ofNat 8 (signatures.getD i 0)
      signatures.length = 64 ∧
        checkOf d = ((List.range 64).filter fun i => d.getLsbD i).foldl (fun x i => x ^^^ signature i) 0 ∧
        ∀ x : Byte,
          let read := readWord (be 8 d.toNat ++ [~~~(checkOf d ^^^ x)])
          (x = 0 → read = .good d) ∧ (∀ i < 64, x = signature i → read = .corrected (d ^^^ (1#64 <<< i))) ∧
            (∀ i < 8, x = 1#8 <<< i → read = .corrected d) ∧
            (x ≠ 0 → (∀ i < 64, x ≠ signature i) → (∀ i < 8, x ≠ 1#8 <<< i) → read = .uncorrectable)) ∧
    (∀ r : AccountRecord,
      r.bytes =
        ([r.this.b0 ++ r.this.b1, r.this.b2 ++ r.this.b3, r.last.b0 ++ r.last.b1, r.last.b2 ++ r.last.b3,
            r.thisFuel ++ r.lastFuel, r.festival ++ r.period ++ r.tag ++ r.straddles] : List (BitVec 64)).flatMap fun w =>
          be 8 w.toNat ++ [~~~checkOf w]) ∧
    (∀ (s : State) (a : Nat) (r : AccountRecord),
      let answers := if a < 512 then s.tally.bank0 && s.bank0Fitted else s.tally.bank1 && s.bank1Fitted
      (answers = true →
          s.writeRecord a r = { s with tallyMem := Memory.writeBytes s.tallyMem (54 * a) r.bytes } ∧
            s.readRecord a = readRecordBytes (Memory.readBytes s.tallyMem (54 * a) 54)) ∧
        (answers = false →
          s.writeRecord a r = s ∧ s.readRecord a = readRecordBytes (List.replicate 54 0))) ∧
  (∀ d : BitVec 64, readWord (be 8 d.toNat ++ [~~~checkOf d]) = .good d) ∧
    (∀ (d : BitVec 64) (i : Nat), i < 64 →
      readWord (be 8 (d ^^^ (1#64 <<< i)).toNat ++ [~~~checkOf d]) = .corrected d) ∧
    (∀ (d : BitVec 64) (i : Nat), i < 8 →
      readWord (be 8 d.toNat ++ [~~~checkOf d ^^^ (1#8 <<< i)]) = .corrected d) ∧
    (∀ (d : BitVec 64) (i j : Nat), i < j → j < 64 →
      readWord (be 8 (d ^^^ (1#64 <<< i) ^^^ (1#64 <<< j)).toNat ++ [~~~checkOf d]) = .uncorrectable) ∧
    (∀ (d : BitVec 64) (i j : Nat), i < 64 → j < 8 →
      readWord (be 8 (d ^^^ (1#64 <<< i)).toNat ++ [~~~checkOf d ^^^ (1#8 <<< j)]) = .uncorrectable) ∧
    (∀ (d : BitVec 64) (i j : Nat), i < j → j < 8 →
      readWord (be 8 d.toNat ++ [~~~checkOf d ^^^ (1#8 <<< i) ^^^ (1#8 <<< j)]) = .uncorrectable) ∧
    readWord (List.replicate 9 0) = .uncorrectable ∧
    (∀ r : AccountRecord, r.bytes.length = 54 ∧ readRecordBytes r.bytes = .good r) ∧
    ∀ (s : State) (a : Nat) (r : AccountRecord), s.tallyMem.wf = true →
      (if a < 512 then s.tally.bank0 && s.bank0Fitted else s.tally.bank1 && s.bank1Fitted) = true →
        (s.writeRecord a r).readRecord a = .good r ∧
          (∀ b, b ≠ a → (s.writeRecord a r).readRecord b = s.readRecord b) ∧
          ∀ x, x < a * 54 ∨ a * 54 + 54 ≤ x → (s.writeRecord a r).tallyMem.read x = s.tallyMem.read x

/-- R166, R168 to R171, R180, R181: an account update performed by the mode's handling, with the record's new values.
R160, R162 to R164: its outcome is applied to the circuit (`applyOutcome`), the billing ends, the sources that wait for
the circuit's mark start in their order, and its own source goes on. While INIT TALLY is outstanding, anywhere on the
list, updates are passed over (R188): the operation to be performed next is then no update, and nothing happens (the
model's choice, log entry 2). -/
def Obligations.AccountUpdateIsPerformed : Prop :=
  (∀ (s : State) (u : AccountUpdate) (rest : List WorkOp),
      s.tally.work = .update u :: rest → (∀ o ∈ rest, o.isInit = false) →
        let t : State := { s with tally := { s.tally with work := rest } }
        let a := u.account
        let n := a % 64
        let new := fun (r : AccountRecord) => (r.roll s.period.number).add u (bandAt s.clock.tariff s.clock.second)
        let ended := fun (v : State) (o : UpdateOutcome) => (v.endBilling u.source o).finish.transmit
        let fetched := fun (op : ReadOp) (v w : State) (r : AccountRecord) =>
          (v.readRecord a = .good r ∧ w = v) ∨
            ∃ words first, v.readRecord a = .corrected r words first ∧ w = v.readCorrected a r words first op
        (a ∈ s.tally.quarantine → exec .accountUpdate s = .next (ended t .quarantined)) ∧
          (a ∉ s.tally.quarantine →
            (∀ l, s.tally.lines.get n = some (some l) → l.account = a →
                (s.windows.mode a = .held →
                    exec .accountUpdate s =
                      .next (ended (t.setLine n (some ⟨true, a, new l.record⟩)) .performed)) ∧
                  (s.windows.mode a = .through →
                    exec .accountUpdate s =
                      .next (ended ((t.writeRecord a (new l.record)).setLine n (some ⟨false, a, new l.record⟩))
                        .performed)) ∧
                  (s.windows.mode a = .direct →
                    exec .accountUpdate s =
                      .next (ended ((t.writeRecord a (new l.record)).setLine n none) .performed))) ∧
              ((∀ l, s.tally.lines.get n = some (some l) → l.account ≠ a) →
                (s.windows.mode a = .direct →
                    (∀ w r, fetched .update t w r →
                        exec .accountUpdate s = .next (ended (w.writeRecord a (new r)) .performed)) ∧
                      ∀ k, t.readRecord a = .uncorrectable k →
                        exec .accountUpdate s = .next (ended (t.readFailed a k .update) .unreadable)) ∧
                  ∀ v : State,
                    (∀ x r, s.tally.lines.get n = some (some ⟨true, x, r⟩) →
                        v = (t.writeRecord x r).setLine n (some ⟨false, x, r⟩)) →
                    ((∀ x r, s.tally.lines.get n ≠ some (some ⟨true, x, r⟩)) → v = t) →
                      (∀ w r, fetched .fill v w r →
                          (s.windows.mode a = .held →
                              exec .accountUpdate s =
                                .next (ended (w.setLine n (some ⟨true, a, new r⟩)) .performed)) ∧
                            (s.windows.mode a = .through →
                              exec .accountUpdate s =
                                .next (ended ((w.writeRecord a (new r)).setLine n (some ⟨false, a, new r⟩))
                                  .performed))) ∧
                        ∀ k, v.readRecord a = .uncorrectable k → s.windows.mode a ≠ .direct →
                          exec .accountUpdate s = .next (ended (v.readFailed a k .fill) .unreadable)))) ∧
    (∀ (r : AccountRecord) (u : AccountUpdate) (band : Nat),
      let q := r.add u band
      q.this.b0.toNat = (if band = 0 then min (r.this.b0.toNat + u.delta.toNat) 4294967295 else r.this.b0.toNat) ∧
        q.this.b1.toNat = (if band = 1 then min (r.this.b1.toNat + u.delta.toNat) 4294967295 else r.this.b1.toNat) ∧
        q.this.b2.toNat = (if band = 2 then min (r.this.b2.toNat + u.delta.toNat) 4294967295 else r.this.b2.toNat) ∧
        q.this.b3.toNat = (if 3 ≤ band then min (r.this.b3.toNat + u.delta.toNat) 4294967295 else r.this.b3.toNat) ∧
        q.festival.toNat = min (r.festival.toNat + u.delta.toNat) 1099511627775 ∧
        q.thisFuel.toNat = min (r.thisFuel.toNat + u.fuelShare) 4294967295 ∧
        q.straddles.toNat = min (r.straddles.toNat + flag u.straddle) 16383 ∧ q.tag = u.tag ∧ q.last = r.last ∧
        q.lastFuel = r.lastFuel ∧ q.period = r.period) ∧
    (∀ (s : State) (o : WorkOp), o ∈ s.tally.work → o.isInit = true → exec .accountUpdate s = .next s.finish.transmit) ∧
    (∀ (s : State) (src : Source) (o : UpdateOutcome),
      ((∀ b ∈ s.billing.inFlight, b.source ≠ src) → s.endBilling src o = s) ∧
        ∀ before b after, s.billing.inFlight = before ++ b :: after → b.source = src →
          (∀ x ∈ before, x.source ≠ src) →
            s.endBilling src o =
              (State.passMark b.circuit s.billing.waiters.length
                (({ s with
                  billing := { s.billing with
                    inFlight := s.billing.inFlight.filter fun x => x.source != src } } : State).applyOutcome b o)).goOn
                  src) ∧
    (∀ (s : State) (c n : Nat), (∀ w ∈ s.billing.waiters, w.circuit ≠ c) → State.passMark c n s = s) ∧
    (∀ (s : State) (c n : Nat) (w : Waiter) (before after : List Waiter), s.billing.waiters = before ++ w :: after →
      w.circuit = c → (∀ x ∈ before, x.circuit ≠ c) →
        let run := ({ s with billing := { s.billing with waiters := before ++ after } } : State).runBilling w.source c
        State.passMark c (n + 1) s = if run.2 = true then run.1 else State.passMark c n (run.1.goOn w.source)) ∧
    (∀ s : State,
      s.goOn .sweep =
        ({ s with
          billing := { s.billing with sweep := s.billing.sweep.map fun x => { x with next := x.next + 1 } } } :
          State).tell (.bill .sweep)) ∧
    ∀ (s : State) (k : Nat) (x : Stream), s.billing.streams.get k = some x →
      s.goOn (.stream k) =
        ({ s with
          billing := { s.billing with streams := s.billing.streams.set k { x with next := x.next + 1 } } } :
          State).tell (.bill (.stream k))

/-- R179: the outcome of a read, decided from its six words together: the lowest uncorrectable word, where there is one,
whatever the others show; else the record their data spell, with the number of corrected words and the lowest of them
where any was corrected. R180 to R184: what a read with corrected words and one with an uncorrectable word do: the repair, the count, the
quarantine list, the fault latch and TALLY FAULT. READ TALLY FAULT tells them and empties the latch. -/
def Obligations.TallyFaultsAreKept : Prop :=
  (∀ bs : List Byte,
      let word := fun k => readWord ((bs.drop (9 * k)).take 9)
      (∀ k < 6, word k = .uncorrectable → (∀ j < k, word j ≠ .uncorrectable) → readRecordBytes bs = .uncorrectable k) ∧
        ∀ d : Nat → BitVec 64, (∀ k < 6, word k = .good (d k) ∨ word k = .corrected (d k)) →
          ∃ r : AccountRecord,
            [r.this.b0 ++ r.this.b1, r.this.b2 ++ r.this.b3, r.last.b0 ++ r.last.b1, r.last.b2 ++ r.last.b3,
                r.thisFuel ++ r.lastFuel, r.festival ++ r.period ++ r.tag ++ r.straddles] = (List.range 6).map d ∧
              ((∀ k < 6, word k = .good (d k)) → readRecordBytes bs = .good r) ∧
              ∀ first < 6, word first = .corrected (d first) → (∀ j < first, word j = .good (d j)) →
                readRecordBytes bs =
                  .corrected r ((List.range 6).filter fun k => word k == .corrected (d k)).length first) ∧
  (∀ (s : State) (a words first : Nat) (r : AccountRecord) (op : ReadOp),
      let repaired := s.writeRecord a r
      let counted : State :=
        { repaired with tally := { s.tally with corrected := min (s.tally.corrected + words) 65535 } }
      (s.tally.fault ≠ none → s.readCorrected a r words first op = counted) ∧
        (s.tally.fault = none →
          s.readCorrected a r words first op =
            ({ counted with
              tally := { counted.tally with
                fault := some ⟨false, a, first, op, ⟨s.clock.day, s.clock.second⟩, false⟩ } } : State).post .tallyFault
              (be 1 1 ++ be 2 a ++ be 1 first ++
                be 1 (match op with | .fill => 1 | .update => 2 | .statement => 3) ++ be 1 0))) ∧
    (∀ (s : State) (a word : Nat) (op : ReadOp),
      let room := s.tally.quarantine.length < 8
      let list := if room then s.tally.quarantine ++ [a] else s.tally.quarantine
      (s.tally.fault = none →
          s.readFailed a word op =
            ({ s with
              tally := { s.tally with
                quarantine := list
                fault := some ⟨true, a, word, op, ⟨s.clock.day, s.clock.second⟩, false⟩ } } : State).post .tallyFault
              (be 1 2 ++ be 2 a ++ be 1 word ++
                be 1 (match op with | .fill => 1 | .update => 2 | .statement => 3) ++ be 1 (if room then 1 else 2))) ∧
        ∀ l, s.tally.fault = some l →
          s.readFailed a word op =
            { s with tally := { s.tally with quarantine := list, fault := some { l with more := true } } }) ∧
    ∀ (s : State) (tag : Byte), Offered s .office 0x4C tag [] →
      exec (.readTallyFault .office) s =
        .next (({ s.judged .office with tally := { s.tally with fault := none } } : State).didReply .office
          ((match s.tally.fault with
            | some l =>
              be 1 1 ++ be 1 (if l.uncorrectable then 2 else 1) ++ be 2 l.account ++ be 1 l.word ++
                be 1 (match l.op with | .fill => 1 | .update => 2 | .statement => 3) ++ be 1 l.stamp.day ++
                be 3 l.stamp.second ++ be 1 (flag l.more)
            | none => List.replicate 11 0) ++
            be 2 s.tally.corrected ++ be 1 s.tally.quarantine.length ++
            (List.range 8).flatMap fun k => be 2 (s.tally.quarantine.getD k 0)))

/-- R172, R185, R186: STATEMENT and REWRITE ACCOUNT are placed on the work list, or refused; each performed is one
step, taken from the front of the list, or from behind the account updates that INIT TALLY passes over (R188). The period
number of a rewrite is set when it is performed; until then its place holds 0. -/
def Obligations.StatementsAndRewrites : Prop :=
  (∀ (s : State) (p : Port) (tag : Byte) (a : Nat), a < 65536 → Offered s p 0x48 tag (be 2 a) →
      let t := s.judged p
      (1023 < a → exec (.statement p) s = .next (t.replied p (.refused .range 1 0xFF))) ∧
        (a ≤ 1023 → exec (.statement p) s = .next (t.requeue (.statement p a)).transmit)) ∧
    (∀ (s : State) (p : Port) (a : Nat) (rest : List WorkOp), Performs s.tally.work (.statement p a) rest →
      let t : State := { s with tally := { s.tally with work := rest } }
      let shown := fun (source : Nat) (r : AccountRecord) =>
        let q := r.roll s.period.number
        be 2 a ++ be 1 source ++ be 4 q.this.b0.toNat ++ be 4 q.this.b1.toNat ++ be 4 q.this.b2.toNat ++
          be 4 q.this.b3.toNat ++ be 4 q.last.b0.toNat ++ be 4 q.last.b1.toNat ++ be 4 q.last.b2.toNat ++
          be 4 q.last.b3.toNat ++ be 4 q.thisFuel.toNat ++ be 4 q.lastFuel.toNat ++ be 5 q.festival.toNat ++
          be 1 q.period.toNat ++ be 1 q.tag.toNat ++ be 2 q.straddles.toNat ++
          be 1 (match s.windows.mode a with | .held => 0 | .through => 1 | .direct => 2)
      let present := if a < 512 then s.tally.bank0 else s.tally.bank1
      (present = false → exec .performStatement s = .next (t.replied p (.refused .absent 1 0xFF))) ∧
        (present = true → a ∈ s.tally.quarantine →
          exec .performStatement s = .next (t.replied p (.refused .state 1 0xFF))) ∧
        (present = true → a ∉ s.tally.quarantine →
          (∀ l, s.tally.lines.get (a % 64) = some (some l) → l.account = a →
              exec .performStatement s = .next (t.didReply p (shown (if l.dirty then 2 else 1) l.record))) ∧
            ((∀ l, s.tally.lines.get (a % 64) = some (some l) → l.account ≠ a) →
              (∀ r, s.readRecord a = .good r → exec .performStatement s = .next (t.didReply p (shown 0 r))) ∧
                (∀ r words first, s.readRecord a = .corrected r words first →
                  exec .performStatement s =
                    .next ((t.readCorrected a r words first .statement).didReply p (shown 0 r))) ∧
                ∀ w, s.readRecord a = .uncorrectable w →
                  exec .performStatement s =
                    .next ((t.readFailed a w .statement).replied p (.refused .state 1 0xFF))))) ∧
    (∀ (s : State) (tag : Byte) (a mark_ straddles : Nat) (w : List Nat) (festival : Nat),
      a < 65536 → mark_ < 256 → straddles < 65536 → w.length = 10 → (∀ x ∈ w, x < 4294967296) →
      festival < 1099511627776 →
      let payload :=
        be 2 a ++ (w.flatMap fun x => be 4 x) ++ be 5 festival ++ be 1 mark_ ++ be 2 straddles
      Offered s .office 0x49 tag payload →
        let t := s.judged .office
        let word := fun k => BitVec.ofNat 32 (w.getD k 0)
        FirstDecides
          [(decide (1023 < a), .refused .range 1 0xFF), (decide (3 < mark_), .refused .range 13 0xFF),
            (decide (16383 < straddles), .refused .range 14 0xFF),
            (!(if a < 512 then s.tally.bank0 else s.tally.bank1), .refused .absent 1 0xFF),
            ((s.windows.denies .office a).isSome, .refused .denied 1 ((s.windows.denies .office a).getD 0xFF))]
          (fun r => exec (.rewriteAccount .office) s = .next (t.replied .office r))
          (exec (.rewriteAccount .office) s =
            .next (t.requeue (.rewrite a
              ⟨⟨word 0, word 1, word 2, word 3⟩, ⟨word 4, word 5, word 6, word 7⟩, word 8, word 9,
                BitVec.ofNat 40 festival, 0, BitVec.ofNat 2 mark_, BitVec.ofNat 14 straddles⟩)).transmit)) ∧
    ∀ (s : State) (a : Nat) (r : AccountRecord) (rest : List WorkOp), Performs s.tally.work (.rewrite a r) rest →
      let q : AccountRecord := { r with period := BitVec.ofNat 8 s.period.number }
      let written := ({ s with tally := { s.tally with work := rest } } : State).writeRecord a q
      let gone := s.tally.quarantine.filter fun x => x != a
      let reply := be 1 s.period.number ++ be 1 (flag (s.tally.quarantine.contains a))
      (∀ l, s.tally.lines.get (a % 64) = some (some l) → l.account = a →
          exec .performRewrite s =
            .next (({ written with
              tally := { written.tally with
                lines := s.tally.lines.set (a % 64) (some ⟨false, a, q⟩), quarantine := gone } } : State).didReply .office
                  reply)) ∧
        ((∀ l, s.tally.lines.get (a % 64) = some (some l) → l.account ≠ a) →
          exec .performRewrite s =
            .next (({ written with tally := { written.tally with quarantine := gone } } : State).didReply .office reply))

/-- R173, R187, R188: FLUSH TOTALS and INIT TALLY are placed on the work list, and their steps, one line or one
account each, taken from the front of the list, or from behind the account updates that INIT TALLY passes over. With no
bank present INIT TALLY ends at its first step, every line made invalid, and DONE tells that nothing was written (the
model's reading, log entry 18). -/
def Obligations.FlushAndInitialise : Prop :=
  (∀ (s : State) (tag : Byte), Offered s .office 0x4A tag [] →
      exec (.flushTotals .office) s =
        .next ((s.judged .office).requeue (.flush 0 0)).transmit) ∧
    (∀ (s : State) (n written : Nat) (rest : List WorkOp), n ≤ 63 → Performs s.tally.work (.flush n written) rest →
      let t : State := { s with tally := { s.tally with work := rest } }
      ∀ (v : State) (count : Nat),
        (∃ a r, s.tally.lines.get n = some (some ⟨true, a, r⟩) ∧
            v = (t.writeRecord a r).setLine n (some ⟨false, a, r⟩) ∧ count = written + 1) ∨
          ((∀ l, s.tally.lines.get n = some (some l) → l.dirty = false) ∧ v = t ∧ count = written) →
        (n < 63 → exec .flushStep s = .next (v.requeue (.flush (n + 1) count)).transmit) ∧
          (n = 63 → exec .flushStep s = .next (v.didReply .office (be 1 count)))) ∧
    (∀ (s : State) (tag : Byte), Offered s .office 0x4B tag [] →
      let t := s.judged .office
      let busy :=
        s.billing.sweep ≠ none ∨ s.period.close ≠ none ∨ (∃ k ∈ s.stages.cells, ∃ c, k.state = .changing c) ∨
          ∃ x ∈ s.billing.streams.cells, x.requests ≠ []
      (busy → exec (.initTally .office) s = .next (t.replied .office (.refused .state 0 0xFF))) ∧
        (¬busy → exec (.initTally .office) s = .next (t.requeue (.initTally false 0 0)).transmit)) ∧
    ∀ (s : State) (begun : Bool) (n written : Nat) (rest : List WorkOp),
      Performs s.tally.work (.initTally begun n written) rest →
      let present := s.tally.bank0 = true ∨ s.tally.bank1 = true
      let a := if s.tally.bank0 then n else max n 512
      let last := if s.tally.bank1 then 1023 else 511
      let t : State :=
        { s with
          tally := { s.tally with
            work := rest, lines := if begun then s.tally.lines else Table.replicate 64 none } }
      let v := t.writeRecord a ⟨⟨0, 0, 0, 0⟩, ⟨0, 0, 0, 0⟩, 0, 0, 0, BitVec.ofNat 8 s.period.number, 0, 0⟩
      (present → a < last →
          exec .initTallyStep s = .next (v.requeue (.initTally true (a + 1) (written + 1))).transmit) ∧
        (present → a = last →
          exec .initTallyStep s =
            .next (({ v with tally := { v.tally with quarantine := [] } } : State).didReply .office
              (be 2 (written + 1) ++ be 1 s.tally.quarantine.length))) ∧
        (¬present ∨ last < a →
          exec .initTallyStep s =
            .next (({ t with tally := { t.tally with quarantine := [] } } : State).didReply .office
              (be 2 written ++ be 1 s.tally.quarantine.length)))

/-! ## Billing periods and hire records (11) -/

/-- R191, R193 to R195, R197, R198: the lazy roll; CLOSE PERIOD, TAKE HIRE RECORD and READ PERIOD; the final step of a
close, which writes a line for every leased set that has a place, starts its period counters again, and posts PERIOD
CLOSED with the number closed, the lines and the sets carried. A set leased during the close has a place when one is
left besides those of the counted sets still to come (the model's reading, log entry 17). R160, R163, R164, R194: how a
source of billings goes on: the sweep to its next circuit, after circuit 95 to its end, there to the CLOSING sweep called
for or to the final step of the close; a stream to the next circuit of its front request, after the eighth to the
request's end. A source that waits or has a billing in flight does not go on (R160). So a CLOSE PERIOD with no circuit to
bill takes the final step at once. That what is told is acted on within the command is the model's reading (logs 9
and 10). -/
def Obligations.PeriodsAreClosed : Prop :=
  (∀ (r : AccountRecord) (c : Nat), c < 256 →
      (r.period.toNat = c → r.roll c = r) ∧
        (r.period.toNat + 1 = c →
          r.roll c =
            { r with
              last := r.this, lastFuel := r.thisFuel, this := ⟨0, 0, 0, 0⟩, thisFuel := 0,
              period := BitVec.ofNat 8 c }) ∧
        (r.period.toNat ≠ c → r.period.toNat + 1 ≠ c →
          r.roll c =
            { r with
              last := ⟨0, 0, 0, 0⟩, lastFuel := 0, this := ⟨0, 0, 0, 0⟩, thisFuel := 0,
              period := BitVec.ofNat 8 c })) ∧
    (∀ (s : State) (tag : Byte), Offered s .office 0x50 tag [] →
      let t := s.judged .office
      let leased := (List.range 12).filter fun i => (s.lease i).isSome
      FirstDecides
        [(decide (s.period.close ≠ none), .refused .busy 0 0xFF), (decide (s.period.number = 255), .refused .range 0 0xFF),
          (decide (24 - s.period.hire.length < leased.length), .refused .full 0 0xFF)]
        (fun r => exec (.closePeriod .office) s = .next (t.replied .office r))
        ((s.billing.sweep = none →
            exec (.closePeriod .office) s =
              .next ((({ t with
                period := { s.period with close := some ⟨true, leased⟩ }
                billing := { s.billing with sweep := some ⟨.closing, 0⟩, closingCalled := false } } : State).tell
                  (.bill .sweep)).finish.replied .office .accepted)) ∧
          (s.billing.sweep ≠ none →
            exec (.closePeriod .office) s =
              .next (({ t with
                period := { s.period with close := some ⟨false, leased⟩ }
                billing := { s.billing with closingCalled := true } } : State).finish.replied .office .accepted)))) ∧
    (∀ (s : State) (tag : Byte), Offered s .office 0x51 tag [] →
      let t := s.judged .office
      (s.period.hire = [] → exec (.takeHireRecord .office) s = .next (t.replied .office (.refused .empty 0 0xFF))) ∧
        ∀ l more, s.period.hire = l :: more →
          exec (.takeHireRecord .office) s =
            .next (({ t with period := { s.period with hire := more } } : State).didReply .office
              (be 1 l.set ++ be 1 (match l.origin with | .close => 1 | .release => 2) ++ be 2 l.vendor ++ be 4 l.hire ++
                be 1 l.period ++ be 4 l.counters.runtime.toNat ++ be 4 l.counters.burned.toNat ++
                be 4 l.counters.energy.toNat ++ be 2 l.counters.starts.toNat ++ be 2 l.counters.gaps.toNat ++
                be 1 l.stamp.day ++ be 3 l.stamp.second ++ be 1 more.length))) ∧
    (∀ (s : State) (p : Port) (tag : Byte), Offered s p 0x52 tag [] →
      let counted := match s.period.close with | some c => c.counted.length | none => 0
      exec (.readPeriod p) s =
        .next ((s.judged p).didReply p
          (be 1 s.period.number ++ be 1 s.period.opened.day ++ be 3 s.period.opened.second ++
            be 1 s.period.hire.length ++
            be 1 (match s.period.close with | none => 0 | some c => if c.sweeping then 2 else 1) ++ be 1 counted ++
            be 1 ((List.range 12).filter fun i => (s.lease i).isSome).length ++
            be 1 (24 - s.period.hire.length - counted)))) ∧
    (∀ (s : State) (c : CloseContext), s.period.close = some c → s.period.hire.length + c.counted.length ≤ 24 →
      c.counted.Nodup → (∀ i ∈ c.counted, s.lease i ≠ none) →
        let u := s.finalStep
        u.period.number = s.period.number + 1 ∧ u.period.opened = ⟨s.clock.day, s.clock.second⟩ ∧
          u.period.close = none ∧ u.period.hire.length ≤ 24 ∧
          (∃ lines : List HireLine, u.period.hire = s.period.hire ++ lines ∧
            (lines.Pairwise fun x y => x.set < y.set) ∧
            (∀ i ∈ c.counted, ∃ l ∈ lines, l.set = i) ∧
            (∀ i < 12, s.lease i ≠ none → i ∉ c.counted →
              ((∃ l ∈ lines, l.set = i) ↔
                s.period.hire.length + (lines.filter fun l => l.set < i).length +
                  (c.counted.filter fun j => i < j).length < 24)) ∧
            (∀ p, u.port p =
              (s.post .periodClosed
                (be 1 s.period.number ++ be 1 lines.length ++
                  be 1 (((List.range 12).filter fun i => (s.lease i).isSome).length - lines.length) ++
                  be 1 s.clock.day ++ be 3 s.clock.second)).port p) ∧
            (∀ l ∈ lines, ∃ x, s.lease l.set = some x ∧
              l = ⟨l.set, .close, x.vendor, x.hire, s.period.number, x.current, ⟨s.clock.day, s.clock.second⟩⟩) ∧
            ∀ i r x, s.set i = some r → r.lease = some x →
              u.set i =
                some (if ∃ l ∈ lines, l.set = i then { r with lease := some { x with current := .zero } } else r)) ∧
          (∀ i r, s.set i = some r → r.lease = none → u.set i = some r) ∧
          u.line = s.line ∧ u.billing = s.billing ∧ u.tally = s.tally ∧ u.tallyMem = s.tallyMem ∧ u.clock = s.clock) ∧
    (∀ (s : State) (src : Source),
      (∃ w ∈ s.billing.waiters, w.source = src) ∨ (∃ b ∈ s.billing.inFlight, b.source = src) →
        s.continueSource src = s) ∧
    (∀ s : State, (∀ w ∈ s.billing.waiters, w.source ≠ .sweep) → (∀ b ∈ s.billing.inFlight, b.source ≠ .sweep) →
      (s.billing.sweep = none → s.continueSource .sweep = s) ∧
        ∀ x, s.billing.sweep = some x →
          let ended : State := { s with billing := { s.billing with sweep := none } }
          (x.next < 96 → s.continueSource .sweep = s.reach .sweep x.next) ∧
            (96 ≤ x.next → x.kind = .closing → s.continueSource .sweep = ended.finalStep) ∧
            (96 ≤ x.next → x.kind = .timed → s.billing.closingCalled = false → s.continueSource .sweep = ended) ∧
            (96 ≤ x.next → x.kind = .timed → s.billing.closingCalled = true →
              s.continueSource .sweep =
                ({ s with
                  period := { s.period with close := s.period.close.map fun c => { c with sweeping := true } }
                  billing := { s.billing with sweep := some ⟨.closing, 0⟩, closingCalled := false } } : State).tell
                    (.bill .sweep))) ∧
    (∀ (s : State) (k : Nat) (x : Stream), (∀ w ∈ s.billing.waiters, w.source ≠ .stream k) →
      (∀ b ∈ s.billing.inFlight, b.source ≠ .stream k) → s.billing.streams.get k = some x →
        (x.requests = [] → s.continueSource (.stream k) = s) ∧
          ∀ r more, x.requests = r :: more →
            (x.next < 8 → s.continueSource (.stream k) = s.reach (.stream k) (8 * r.station + x.next)) ∧
              (8 ≤ x.next →
                s.continueSource (.stream k) =
                  (({ s with
                    billing := { s.billing with streams := s.billing.streams.set k ⟨more, 0⟩ } } : State).tell
                      (.boundaryEnded r)).tell (.bill (.stream k)))) ∧
    (∀ (s : State) (src : Source) (c : Nat) (r : Circuit), s.circuit c = some r →
      (r.state = .unread → s.reach src c = s.goOn src) ∧
        (r.state ≠ .unread → (∃ b ∈ s.billing.inFlight, b.circuit = c) →
          s.reach src c = { s with billing := { s.billing with waiters := s.billing.waiters ++ [⟨src, c⟩] } }) ∧
        (r.state ≠ .unread → (∀ b ∈ s.billing.inFlight, b.circuit ≠ c) →
          ((s.runBilling src c).2 = true → s.reach src c = (s.runBilling src c).1) ∧
            ((s.runBilling src c).2 = false → s.reach src c = (s.runBilling src c).1.goOn src))) ∧
    ∀ (s : State) (tag : Byte), Offered s .office 0x50 tag [] → s.told = [] → s.billing.sweep = none →
      (∀ w ∈ s.billing.waiters, w.source ≠ .sweep) → (∀ b ∈ s.billing.inFlight, b.source ≠ .sweep) →
      (∀ c r, s.circuit c = some r → r.state = .unread) → s.period.close = none → s.period.number ≠ 255 →
        let leased := (List.range 12).filter fun i => (s.lease i).isSome
        leased.length ≤ 24 - s.period.hire.length →
          exec (.closePeriod .office) s =
            .next ((({ s.judged .office with
              period := { s.period with close := some ⟨true, leased⟩ }
              billing := { s.billing with closingCalled := false } } : State).finalStep.arbitrate).replied .office
                .accepted)

/-! ## Start-up, resets and the site plan (12) -/

/-- R199 to R201: loading: the header, the walk over the sections in the bytes of plan memory behind a valid header
(zeros where none is fitted), the decision on each, the data of the first section of a kind where it is TAKEN, and PLAN
LOADED: the sections are applied in their order, the part is READY and STARTED goes to both ports; what each section leaves in its tables:
SITE, STATIONS (checks 1 to 6 of ENROL STATION, R53), STAGES (R141), MARKS (R96), TALLY, SWEEP and WINDOWS (R44); the
default of each section that is not taken, whether or not others are. That a section which would run past the image length
leaves an earlier decision of its kind as it is, is the model's choice (log entry 43). A STATIONS length is judged as 1 + 4n alone, and a count it does not bear out is cut to the entries
present (log entry 19); accept codes are read from the low bits (log entry 20); PLAN LOADED when READY changes nothing
(log entry 2). R18: IDENTIFY, on either port; while the part is LOADING it shows the sections decided so far (log entry
21). -/
def Obligations.PlanIsLoadedAndPartIdentified : Prop :=
  ((∀ s : State, s.loader.ready = false → ∃ u : State,
        u = (s.applySections s.planSections) ∧
          exec .planLoaded s =
            .next ((({ u with
              loader := { u.loader with
                ready := true
                report := reportFor s.planSections
                sectionsRead := s.planSections.length } } : State).post .started
                  (be 1 (flag s.loader.lastSoft) ++
                    (reportFor s.planSections).cells.flatMap fun d =>
                      be 1 (match d with | .taken => 0 | .left => 1 | .bad => 2 | .absent => 3))).finish).transmit ∧
          u.clock.state = s.clock.state ∧ u.clock.day = s.clock.day ∧ u.clock.second = s.clock.second ∧
          u.planMem = s.planMem ∧ u.tallyMem = s.tallyMem ∧ u.period = s.period ∧ u.deliveries = s.deliveries ∧
          u.yard = s.yard ∧ u.office = s.office) ∧
      (∀ s : State, s.loader.ready = true → exec .planLoaded s = .next s.finish.transmit) ∧
      (∀ s : State,
        let read := fun a n => (List.range n).map fun i => if s.planFitted then s.planMem.read (a + i) else 0
        s.planSections = match imageLength (read 0 5) with | some n => sectionsOf n (read 5 n) | none => []) ∧
      (∀ (xs : List (List Byte)) (kind : Nat) (data : List Byte),
        takenData xs kind = some data ↔
          ∃ before x after, xs = before ++ x :: after ∧ (∀ y ∈ before, (y.headD 0).toNat ≠ kind) ∧
            (x.headD 0).toNat = kind ∧ decisionOf x = .taken ∧ data = (x.drop 4).take (x.length - 6)) ∧
      (∀ xs : List (List Byte), siteFor xs = match takenData xs 1 with | some bs => fromBe bs | none => 0) ∧
      (∀ header : List Byte, header.length = 5 →
        imageLength header =
          if fromBe (header.take 2) = 0x5648 ∧ fromBe ((header.drop 2).take 1) = 1 ∧ fromBe (header.drop 3) ≤ 1000 then
            some (fromBe (header.drop 3))
          else none) ∧
      (∀ (n : Nat) (kind accept : Byte) (data check more : List Byte), data.length < 65536 → check.length = 2 →
        sectionsOf (n + 1) (kind :: accept :: (be 2 data.length ++ data ++ check ++ more)) =
          (kind :: accept :: (be 2 data.length ++ data ++ check)) :: sectionsOf n more) ∧
      (∀ (n : Nat) (bs : List Byte), bs.length < 6 ∨ bs.length < 6 + fromBe ((bs.drop 2).take 2) → sectionsOf n bs = []) ∧
      (∀ (kind accept : Byte) (data check : List Byte), check.length = 2 →
        decisionOf (kind :: accept :: (be 2 data.length ++ data ++ check)) =
          if accept.toNat % 4 ≠ 1 then .left
          else if checkBytes (kind :: accept :: (be 2 data.length ++ data)) = check ∧
              (match kind.toNat with
                | 1 => decide (data.length = 2)
                | 2 => decide (data.length ≤ 161 ∧ data.length % 4 = 1)
                | 3 => decide (data.length = 32)
                | 4 => decide (data.length = 96)
                | 5 => decide (data.length = 1)
                | 6 => decide (data.length = 6)
                | 7 => decide (data.length = 54)
                | _ => false) = true then .taken
          else .bad) ∧
      (∀ (xs : List (List Byte)) (k : Nat), 1 ≤ k → k ≤ 7 →
        (reportFor xs).get (k - 1) =
          some (match xs.find? fun x => (x.headD 0).toNat == k with | some x => decisionOf x | none => .absent)) ∧
      (∀ (s : State) (xs : List (List Byte)), (∀ k, 1 ≤ k → k ≤ 7 → takenData xs k = none) →
        s.applySections xs = { s with loader := { s.loader with site := 0 } }) ∧
      ∀ (s : State) (xs : List (List Byte)),
        (∀ d, takenData xs 1 = some d → (s.applySections xs).loader.site = fromBe d) ∧
          (takenData xs 1 = none → (s.applySections xs).loader.site = 0) ∧
          (takenData xs 5 = none → (s.applySections xs).tally = s.tally) ∧
          (takenData xs 6 = none → (s.applySections xs).clock = s.clock) ∧
          (∀ b, takenData xs 5 = some [b] →
            (s.applySections xs).tally.bank0 = b.getLsbD 0 ∧ (s.applySections xs).tally.bank1 = b.getLsbD 1) ∧
          ∀ interval limit, interval < 65536 → limit < 4294967296 →
            takenData xs 6 = some (be 2 interval ++ be 4 limit) →
              (s.applySections xs).clock.interval =
                  (if 60 ≤ interval ∧ interval ≤ 900 then interval else s.clock.interval) ∧
                (s.applySections xs).clock.limit =
                  (if 1000 ≤ limit ∧ limit ≤ 4000000 then limit else s.clock.limit)) ∧
    ((∀ (s : State) (xs : List (List Byte)),
        let stations :=
          match takenData xs 2 with
          | some bs => ({ s with loader := { s.loader with site := siteFor xs } } : State).applyStations bs
          | none => { s with loader := { s.loader with site := siteFor xs } }
        let stages :=
          match takenData xs 3 with
          | some bs => State.forEach 8 (State.placeStage (numbers bs)) stations
          | none => stations
        ((s.applySections xs).line = stations.line ∧ (s.applySections xs).sets = stations.sets ∧
            (s.applySections xs).billing = stations.billing ∧ (s.applySections xs).stages = stages.stages) ∧
          (∀ i m, s.marks.get i = some m →
            (s.applySections xs).marks.get i =
              some (match takenData xs 4 with
                | some bs =>
                  let mark := fun j => fromBe ((bs.drop (8 * i + 2 * j)).take 2)
                  if mark 0 < mark 1 ∧ mark 1 < mark 2 ∧ mark 2 < mark 3 then ⟨mark 0, mark 1, mark 2, mark 3⟩ else m
                | none => m)) ∧
          (takenData xs 7 = none → (s.applySections xs).windows = s.windows) ∧
          ∀ (head tail : List Byte) (k enabled base mask roles deny mode mark_ : Nat), head.length = 9 * k →
            tail.length = 9 * (5 - k) → k < 6 → enabled < 256 → base < 65536 → mask < 65536 → roles < 256 → deny < 256 →
            mode < 256 → mark_ < 256 →
            takenData xs 7 =
                some (head ++ (be 1 enabled ++ be 2 base ++ be 2 mask ++ be 1 roles ++ be 1 deny ++ be 1 mode ++
                  be 1 mark_) ++ tail) →
              (k < 4 →
                (s.applySections xs).windows.account.get k =
                  if enabled ≤ 1 ∧ base ≤ 1023 ∧ mask ≤ 1023 ∧ roles ≤ 7 ∧ deny ≤ 1 ∧ mode ≤ 2 ∧ mark_ ≤ 3 then
                    some ⟨enabled == 1, BitVec.ofNat 10 base, BitVec.ofNat 10 mask, roles.testBit 0, roles.testBit 1,
                      roles.testBit 2, deny == 1, if mode = 0 then .held else if mode = 1 then .through else .direct,
                      BitVec.ofNat 2 mark_⟩
                  else s.windows.account.get k) ∧
                (4 ≤ k →
                  (s.applySections xs).windows.sets.get (k - 4) =
                    if enabled ≤ 1 ∧ base ≤ 11 ∧ mask ≤ 15 ∧ roles ≤ 7 ∧ deny ≤ 1 ∧ mode = 0 ∧ mark_ = 0 then
                      some ⟨enabled == 1, BitVec.ofNat 4 base, BitVec.ofNat 4 mask, roles.testBit 0, roles.testBit 1,
                        roles.testBit 2, deny == 1⟩
                    else s.windows.sets.get (k - 4))) ∧
      (∀ (s : State) (bs : List Byte),
        s.applyStations bs =
          (List.range (min (bs.headD 0).toNat ((bs.length - 1) / 4))).foldl (State.placeStation (numbers bs))
            s) ∧
      (∀ (s : State) (v before after : List Nat) (k address cls object stage : Nat), before.length = 4 * k + 1 →
        v = before ++ [address, cls, object, stage] ++ after →
          let class_ : Option StationClass :=
            match cls with
            | 0 => some .set
            | 1 => some .bowser
            | 2 => some .board
            | 3 => some .meter
            | _ => none
          (address = 0 ∨ 62 < address ∨ class_ = none ∨ (class_ = some .set ∧ 11 < object) ∨
              (class_ = some .bowser ∧ 2 < object) ∨ (class_ = some .board ∧ 7 < object) ∨
              (class_ = some .meter ∧ (11 < object ∨ 7 < stage)) ∨ (class_ ≠ some .meter ∧ stage ≠ 0) ∨
              (∃ e st, s.line.stations.get e = some (some st) ∧
                (st.address = address ∨ (class_ = some st.cls ∧ st.object = object))) ∨
              (∀ e, s.line.stations.get e ≠ some none) →
            State.placeStation v s k = s) ∧
          ∀ c e, class_ = some c → address ≠ 0 → address ≤ 62 →
            (match c with | .set => object ≤ 11 | .bowser => object ≤ 2 | .board => object ≤ 7 | .meter => object ≤ 11) →
            (if c = .meter then stage ≤ 7 else stage = 0) →
            (∀ j st, s.line.stations.get j = some (some st) →
              st.address ≠ address ∧ ¬(st.cls = c ∧ st.object = object)) →
            s.line.stations.get e = some none → (∀ j < e, s.line.stations.get j ≠ some none) →
              let u : State :=
                { s with
                  line := { s.line with
                    stations := s.line.stations.set e (some ⟨address, c, object, stage, .unknown, 0, none, none⟩) } }
              State.placeStation v s k =
                match c with
                | .set => { u with sets := s.sets.set object (some SetRecord.fresh) }
                | .meter => u.unreadStation object (some stage)
                | .bowser => u
                | .board => u) ∧
      ∀ (s : State) (v before after : List Nat) (k a b auto dead : Nat) (x : Stage), before.length = 4 * k →
        v = before ++ [a, b, auto, dead] ++ after → k < 8 → s.stage k = some x →
          let good :=
            (a = 255 ∨ s.set a ≠ none) ∧ (b = 255 ∨ s.set b ≠ none) ∧ (a = b → a = 255) ∧ 1 ≤ dead ∧ dead ≤ 10
          (good →
              (State.forEach 8 (State.placeStage v) s).stage k =
                some { x with
                  inputA := if a = 255 then none else some a
                  inputB := if b = 255 then none else some b
                  auto := auto.testBit 0
                  deadTime := dead }) ∧
            (¬good → (State.forEach 8 (State.placeStage v) s).stage k = some x)) ∧
    ∀ (s : State) (p : Port) (tag : Byte) (progress : Nat),
      (s.port p).inProgress = some ⟨⟨0x01, tag, []⟩, false⟩ →
        let t := s.judged p
        let shown := fun (l : Loader) =>
          be 2 0x41B7 ++ be 2 460 ++ be 1 2 ++ be 2 l.site ++ be 1 (flag l.ready) ++ be 1 (flag l.lastSoft) ++
            l.report.cells.flatMap fun d => be 1 (match d with | .taken => 0 | .left => 1 | .bad => 2 | .absent => 3)
        (s.loader.ready = true → exec (.identify p progress) s = .next (t.didReply p (shown s.loader))) ∧
          (s.loader.ready = false →
            let n := max progress s.loader.sectionsRead
            let xs := s.planSections.take n
            let l : Loader := { s.loader with report := reportFor xs, site := siteFor xs, sectionsRead := n }
            exec (.identify p progress) s = .next (({ t with loader := l } : State).didReply p (shown l)))

/-- R203: WRITE PLAN: its checks in order; accepted, the piece joins the pending section; a complete section is
written with the present image's sections, and the header read back decides the verify byte. Of the present sections the
first of each kind 1 to 7 is copied and the others dropped; the new one takes the place of the one of its kind, or goes
after the last. That an image longer than
1,000 bytes is written and reported too is the model's reading (log entry 24). -/
def Obligations.PlanIsWritten : Prop :=
  (∀ (xs : List (List Byte)) (x : List Byte),
      let kind := fun y : List Byte => (y.headD 0).toNat
      keepFirst [] [] = [] ∧
        (1 ≤ kind x → kind x ≤ 7 → (∀ y ∈ xs, kind y ≠ kind x) → keepFirst [] (xs ++ [x]) = keepFirst [] xs ++ [x]) ∧
        (kind x = 0 ∨ 7 < kind x ∨ (∃ y ∈ xs, kind y = kind x) → keepFirst [] (xs ++ [x]) = keepFirst [] xs) ∧
        ((∀ y ∈ xs, kind y ≠ kind x) → putSection x xs = xs ++ [x]) ∧
        ∀ before y after, xs = before ++ y :: after → kind y = kind x → (∀ z ∈ before ++ after, kind z ≠ kind x) →
          putSection x xs = before ++ x :: after) ∧
  ∀ (s : State) (tag : Byte) (kind accept total offset : Nat) (piece : List Byte), kind < 256 →
    accept < 256 → total < 65536 → offset < 65536 → piece.length ≤ 112 →
    let payload := be 1 kind ++ be 1 accept ++ be 2 total ++ be 2 offset ++ be 1 piece.length ++ piece
    Offered s .office 0x03 tag payload →
      let t := s.judged .office
      let continued :=
        match s.loader.section_ with
        | some q => decide (q.kind = kind ∧ q.accept = accept ∧ q.total = total ∧ q.data.length = offset)
        | none => false
      let allowed :=
        match kind with
        | 1 => decide (total = 2)
        | 2 => decide (total ≤ 161 ∧ total % 4 = 1)
        | 3 => decide (total = 32)
        | 4 => decide (total = 96)
        | 5 => decide (total = 1)
        | 6 => decide (total = 6)
        | 7 => decide (total = 54)
        | _ => false
      FirstDecides
        [(decide (kind = 0 ∨ 7 < kind), .refused .range 1 0xFF), (decide (3 < accept), .refused .range 2 0xFF),
          (!allowed, .refused .range 3 0xFF), (decide (total < offset + piece.length), .refused .range 5 0xFF),
          (decide (offset ≠ 0) && !continued, .refused .state 4 0xFF)]
        (fun r => exec (.writePlan .office) s = .next (t.replied .office r))
        (∀ data,
          data =
              (if offset = 0 then [] else match s.loader.section_ with | some q => q.data | none => []) ++ piece →
            (data.length < total →
                exec (.writePlan .office) s =
                  .next (({ t with
                    loader := { s.loader with section_ := some ⟨kind, accept, total, data⟩ } } : State).didReply .office
                      (be 1 0 ++ be 2 data.length))) ∧
              (data.length = total →
                let counted := be 1 kind ++ be 1 accept ++ be 2 total ++ data
                let body := (putSection (counted ++ checkBytes counted) (keepFirst [] s.planSections)).flatten
                let header := be 2 0x5648 ++ be 1 1 ++ be 2 body.length
                let loader : Loader := { s.loader with section_ := none }
                (s.planFitted = true → s.planMem.wf = true →
                    exec (.writePlan .office) s =
                      .next (({ t with
                        loader := loader, planMem := Memory.writeBytes s.planMem 0 (header ++ body) } : State).didReply
                          .office (be 1 1 ++ be 2 body.length ++ be 1 1))) ∧
                  (s.planFitted = false →
                    exec (.writePlan .office) s =
                      .next (({ t with loader := loader } : State).didReply .office
                        (be 1 1 ++ be 2 body.length ++ be 1 0)))))

/-- R17, R97, R142, R159, R175, R202: RESET PART, the steps of its flush, and the soft reset itself: the lines still
dirty are written back in ascending order, the rest of tally memory stays, and what every block keeps and what it loses.
When the reset may take effect, that after a transaction that listened the first poll waits until quiet is told, and that a
frame being sent on the yard line is cut, is the model's reading (log entries 27, 4 and 37). -/
def Obligations.SoftResetKeepsWhatItMust : Prop :=
  (∀ (s : State) (tag : Byte), Offered s .office 0x02 tag [] →
      let t := s.judged .office
      (s.resetRefused = true → exec (.resetPart .office) s = .next (t.replied .office (.refused .state 0 0xFF))) ∧
        (s.resetRefused = false → exec (.resetPart .office) s = .next (t.requeue (.softFlush 0)).transmit)) ∧
    (∀ s : State,
      s.resetRefused = true ↔ (∃ x ∈ s.deliveries.channels.cells, x.state ≠ .idle) ∨
        (∃ k ∈ s.stages.cells, ∃ c, k.state = .changing c) ∨ s.period.close ≠ none) ∧
    (∀ (s : State) (n : Nat) (rest : List WorkOp), n ≤ 63 → Performs s.tally.work (.softFlush n) rest →
      let t : State := { s with tally := { s.tally with work := rest } }
      ∀ v : State,
        (∃ a r, s.tally.lines.get n = some (some ⟨true, a, r⟩) ∧
            v = (t.writeRecord a r).setLine n (some ⟨false, a, r⟩)) ∨
          ((∀ l, s.tally.lines.get n = some (some l) → l.dirty = false) ∧ v = t) →
        (n < 63 → exec .softResetFlushStep s = .next (v.requeue (.softFlush (n + 1))).transmit) ∧
          (n = 63 → s.resetRefused = true →
            exec .softResetFlushStep s = .next (v.replied .office (.refused .state 0 0xFF))) ∧
          (n = 63 → s.resetRefused = false →
            exec .softResetFlushStep s =
              .next (({ v with loader := { v.loader with resetDue := true } } : State).didReply .office []))) ∧
    (∀ s : State, s.loader.resetDue = false ∨ s.office.inProgress ≠ none ∨ s.yard.inProgress ≠ none →
      exec .softReset s = .next s.finish.transmit) ∧
    ∀ s : State, s.loader.resetDue = true → s.office.inProgress = none → s.yard.inProgress = none → ∃ u : State,
      exec .softReset s =
          .next ((u.post .started (be 1 1 ++ s.loader.report.cells.flatMap fun d =>
            be 1 (match d with | .taken => 0 | .left => 1 | .bad => 2 | .absent => 3))).finish).transmit ∧
        u.clock = s.clock ∧ u.tenths = s.tenths ∧ u.windows = s.windows ∧ u.marks = s.marks ∧ u.period = s.period ∧
        u.planMem = s.planMem ∧
        u.tallyMem =
          ((List.range 64).foldl
            (fun (v : State) n =>
              match s.tally.lines.get n with
              | some (some l) => if l.dirty then v.writeRecord l.account l.record else v
              | _ => v) s).tallyMem ∧
        (∀ x,
          (∀ n l, s.tally.lines.get n = some (some l) → l.dirty = true → x < l.account * 54 ∨ l.account * 54 + 54 ≤ x) →
            u.tallyMem.read x = s.tallyMem.read x) ∧
        (∀ p, (u.port p) =
          { s.port p with
            buffer := []
            notices := []
            inputDiscarded := (s.port p).inputDiscarded || !(s.port p).buffer.isEmpty
            noticesDropped := (s.port p).noticesDropped || !(s.port p).notices.isEmpty }) ∧
        (∀ e st, s.line.stations.get e = some (some st) →
          u.line.stations.get e = some (some { st with state := .unknown, run := 0 })) ∧
        u.line.queue = [] ∧ u.line.waiting = [] ∧ u.line.sincePoll = 0 ∧ u.line.pointer = 0 ∧ u.line.round = 0 ∧
        u.line.jammed = false ∧ u.line.jamTimer = 0 ∧ u.line.quietTimer = 0 ∧ u.line.current = none ∧
        (u.line.busy = true ↔
          s.line.busy = true ∨ ∃ t, s.line.current = some t ∧ t.phase = .listening) ∧
        (∀ i r, s.set i = some r → u.set i = some { SetRecord.fresh with lease := r.lease }) ∧
        (∀ c x, s.channel c = some x → u.channel c = some { x with report := none }) ∧
        u.deliveries.log = s.deliveries.log ∧ u.deliveries.opened = s.deliveries.opened ∧
        u.deliveries.taken = s.deliveries.taken ∧
        (∀ k x, s.stage k = some x →
          u.stage k = some ⟨x.inputA, x.inputB, .unknown, x.auto, x.deadTime, none, false, false⟩) ∧
        u.billing.circuits = s.billing.circuits ∧ u.billing.map = s.billing.map ∧
        u.billing.pointer = s.billing.pointer ∧ u.billing.miss = none ∧ u.billing.sweep = none ∧
        u.billing.closingCalled = false ∧ u.billing.inFlight = [] ∧ u.billing.waiters = [] ∧
        (∀ k x, u.billing.streams.get k = some x → x.requests = []) ∧
        (∀ n < 64, u.tally.lines.get n = some none) ∧ u.tally.work = [] ∧ u.tally.quarantine = s.tally.quarantine ∧
        u.tally.fault = none ∧ u.tally.corrected = s.tally.corrected ∧ u.tally.bank0 = s.tally.bank0 ∧
        u.tally.bank1 = s.tally.bank1 ∧
        u.loader.ready = true ∧ u.loader.lastSoft = true ∧ u.loader.report = s.loader.report ∧
        u.loader.site = s.loader.site ∧ u.loader.section_ = none ∧ u.loader.resetDue = false

/-! ## What every step keeps -/

/-- R4, R13: input buffers and notice queues stay within their room. -/
def Obligations.StepKeepsPortsBounded : Prop :=
  ∀ s t : State, s.yard.bounded → s.office.bounded → step s = .next t → t.yard.bounded ∧ t.office.bounded

/-- R57: the command queue stays within its room, with two places kept for SAFETY. -/
def Obligations.StepKeepsTheQueueBounded : Prop :=
  ∀ s t : State, s.line.bounded → step s = .next t → t.line.bounded

/-- Both memories keep their canonical form. (The form is the model's own: a memory is its bytes that are not 0, log
entry 6.) -/
def Obligations.StepKeepsMemoriesCanonical : Prop :=
  ∀ s t : State, s.memoriesCanonical → step s = .next t → t.memoriesCanonical

/-- R19, R23: the clock's value stays within its range. -/
def Obligations.StepKeepsTheClockInRange : Prop :=
  ∀ s t : State, s.clock.inRange → step s = .next t → t.clock.inRange

/-- R150: for every circuit, the credited total plus the rejected total equals the billed cursor minus the base
reading, modulo 2^32, and what this rests on (R160): one billing in flight for a circuit, formed from its cursor. -/
def Obligations.StepKeepsTheBooksBalanced : Prop :=
  ∀ s t : State, s.booksBalance → step s = .next t → t.booksBalance

/-- R154: no two circuit map entries name the same circuit. -/
def Obligations.StepKeepsTheMapSingle : Prop :=
  ∀ s t : State, s.billing.mapSingle → step s = .next t → t.billing.mapSingle

/-- R116: channels not IDLE, records in the log and records taken make up the deliveries opened. -/
def Obligations.StepKeepsDeliveriesAccounted : Prop :=
  ∀ s t : State, s.deliveries.accounted → step s = .next t → t.deliveries.accounted

/-- R167, R184: lines hold accounts of their number that are not quarantined; the quarantine list holds at most 8,
each once. -/
def Obligations.StepKeepsTheTallySound : Prop :=
  ∀ s t : State, s.tally.sound → step s = .next t → t.tally.sound

/-- R196: lines held and places kept stay within the hire queue. -/
def Obligations.StepKeepsHirePlaces : Prop :=
  ∀ s t : State, s.period.placesKept → step s = .next t → t.period.placesKept

/-- The machine right after reset meets every one of these invariants. -/
def Obligations.ResetMeetsTheInvariants : Prop :=
  State.reset.yard.bounded ∧ State.reset.office.bounded ∧ State.reset.line.bounded ∧ State.reset.memoriesCanonical ∧
    State.reset.clock.inRange ∧ State.reset.booksBalance ∧ State.reset.billing.mapSingle ∧
    State.reset.deliveries.accounted ∧ State.reset.tally.sound ∧ State.reset.period.placesKept
end

