-- ==== Sys2Proof/Laws/Bytes.lean ====
section
/-! SUPPORT. Numbers in bytes, high byte first, read back. -/

namespace Sys2Proof.Machine

@[simp] theorem length_be (k n : Nat) : (be k n).length = k := by
  induction k with
  | zero => rfl
  | succ k ih => simp [be, ih]

theorem foldl_bytes (bs : List Byte) (a : Nat) :
    bs.foldl (fun a b => a * 256 + b.toNat) a = a * 256 ^ bs.length + fromBe bs := by
  induction bs generalizing a with
  | nil => simp [fromBe]
  | cons b bs ih =>
    rw [fromBe, List.foldl_cons, List.foldl_cons, ih, ih, List.length_cons, Nat.pow_succ]
    ring

theorem fromBe_cons (b : Byte) (bs : List Byte) : fromBe (b :: bs) = b.toNat * 256 ^ bs.length + fromBe bs := by
  rw [fromBe, List.foldl_cons, foldl_bytes]
  simp

theorem fromBe_lt (bs : List Byte) : fromBe bs < 256 ^ bs.length := by
  induction bs with
  | nil => simp [fromBe]
  | cons b bs ih =>
    rw [fromBe_cons, List.length_cons, Nat.pow_succ]
    have := b.isLt
    nlinarith

/-- A number in `k` bytes is read back modulo 256^k. -/
theorem fromBe_be (k n : Nat) : fromBe (be k n) = n % 256 ^ k := by
  induction k with
  | zero => simp [be, fromBe, Nat.mod_one]
  | succ k ih =>
    have h8 : (2 : Nat) ^ 8 = 256 := rfl
    rw [be, fromBe_cons, length_be, ih, BitVec.toNat_ofNat, h8, Nat.pow_succ, Nat.mod_mul, Nat.mul_comm, Nat.add_comm]

theorem fromBe_be_of_lt {k n : Nat} (h : n < 256 ^ k) : fromBe (be k n) = n := by
  rw [fromBe_be, Nat.mod_eq_of_lt h]

/-- Bytes that spell a number are that number's bytes. -/
theorem be_fromBe (bs : List Byte) : be bs.length (fromBe bs) = bs := by
  induction bs with
  | nil => rfl
  | cons b bs ih =>
    have hlt := fromBe_lt bs
    have hpos : 0 < 256 ^ bs.length := Nat.pow_pos (by decide)
    rw [List.length_cons, be, fromBe_cons]
    congr 1
    · rw [Nat.mul_comm, Nat.mul_add_div hpos, Nat.div_eq_of_lt hlt, Nat.add_zero]
      simp
    · have key : ∀ k m c, be k (c * 256 ^ k + m) = be k m := by
        intro k
        induction k with
        | zero => intros; rfl
        | succ k ihk =>
          intro m c
          rw [be, be, show c * 256 ^ (k + 1) + m = (c * 256) * 256 ^ k + m by ring, ihk m (c * 256)]
          congr 1
          have hk : 0 < 256 ^ k := Nat.pow_pos (by decide)
          rw [Nat.mul_comm, Nat.mul_add_div hk]
          apply BitVec.eq_of_toNat_eq
          simp only [BitVec.toNat_ofNat]
          omega
      rw [key, ih]

theorem fieldValues_be (w : Nat) (ws : List Nat) (n : Nat) (bs : List Byte) :
    fieldValues (w :: ws) (be w n ++ bs) = n % 256 ^ w :: fieldValues ws bs := by
  have h1 : (be w n ++ bs).take w = be w n := by
    rw [List.take_append_of_le_length (by simp), List.take_of_length_le (by simp)]
  have h2 : (be w n ++ bs).drop w = bs := by
    rw [List.drop_append_of_le_length (by simp), List.drop_of_length_le (by simp), List.nil_append]
  rw [fieldValues, h1, h2, fromBe_be]

end Sys2Proof.Machine
end

