-- ==== Sys2Proof/Laws/State.lean ====
section
/-! SUPPORT. What each named update of the state leaves as it is, field by field. -/

namespace Sys2Proof.Machine

/-! ### State.withPort -/

@[simp] theorem State.withPort_clock (s : State) (p : Port) (f : PortState → PortState) : (s.withPort p f).clock = s.clock := by cases p <;> rfl
@[simp] theorem State.withPort_tenths (s : State) (p : Port) (f : PortState → PortState) : (s.withPort p f).tenths = s.tenths := by cases p <;> rfl
@[simp] theorem State.withPort_windows (s : State) (p : Port) (f : PortState → PortState) : (s.withPort p f).windows = s.windows := by cases p <;> rfl
@[simp] theorem State.withPort_line (s : State) (p : Port) (f : PortState → PortState) : (s.withPort p f).line = s.line := by cases p <;> rfl
@[simp] theorem State.withPort_sets (s : State) (p : Port) (f : PortState → PortState) : (s.withPort p f).sets = s.sets := by cases p <;> rfl
@[simp] theorem State.withPort_marks (s : State) (p : Port) (f : PortState → PortState) : (s.withPort p f).marks = s.marks := by cases p <;> rfl
@[simp] theorem State.withPort_deliveries (s : State) (p : Port) (f : PortState → PortState) : (s.withPort p f).deliveries = s.deliveries := by cases p <;> rfl
@[simp] theorem State.withPort_stages (s : State) (p : Port) (f : PortState → PortState) : (s.withPort p f).stages = s.stages := by cases p <;> rfl
@[simp] theorem State.withPort_billing (s : State) (p : Port) (f : PortState → PortState) : (s.withPort p f).billing = s.billing := by cases p <;> rfl
@[simp] theorem State.withPort_tally (s : State) (p : Port) (f : PortState → PortState) : (s.withPort p f).tally = s.tally := by cases p <;> rfl
@[simp] theorem State.withPort_period (s : State) (p : Port) (f : PortState → PortState) : (s.withPort p f).period = s.period := by cases p <;> rfl
@[simp] theorem State.withPort_loader (s : State) (p : Port) (f : PortState → PortState) : (s.withPort p f).loader = s.loader := by cases p <;> rfl
@[simp] theorem State.withPort_planMem (s : State) (p : Port) (f : PortState → PortState) : (s.withPort p f).planMem = s.planMem := by cases p <;> rfl
@[simp] theorem State.withPort_tallyMem (s : State) (p : Port) (f : PortState → PortState) : (s.withPort p f).tallyMem = s.tallyMem := by cases p <;> rfl
@[simp] theorem State.withPort_planFitted (s : State) (p : Port) (f : PortState → PortState) : (s.withPort p f).planFitted = s.planFitted := by cases p <;> rfl
@[simp] theorem State.withPort_bank0Fitted (s : State) (p : Port) (f : PortState → PortState) : (s.withPort p f).bank0Fitted = s.bank0Fitted := by cases p <;> rfl
@[simp] theorem State.withPort_bank1Fitted (s : State) (p : Port) (f : PortState → PortState) : (s.withPort p f).bank1Fitted = s.bank1Fitted := by cases p <;> rfl
@[simp] theorem State.withPort_told (s : State) (p : Port) (f : PortState → PortState) : (s.withPort p f).told = s.told := by cases p <;> rfl
@[simp] theorem State.withPort_pending (s : State) (p : Port) (f : PortState → PortState) : (s.withPort p f).pending = s.pending := by cases p <;> rfl

/-! ### State.judged -/

@[simp] theorem State.judged_clock (s : State) (p : Port) : (s.judged p).clock = s.clock := by cases p <;> rfl
@[simp] theorem State.judged_tenths (s : State) (p : Port) : (s.judged p).tenths = s.tenths := by cases p <;> rfl
@[simp] theorem State.judged_windows (s : State) (p : Port) : (s.judged p).windows = s.windows := by cases p <;> rfl
@[simp] theorem State.judged_line (s : State) (p : Port) : (s.judged p).line = s.line := by cases p <;> rfl
@[simp] theorem State.judged_sets (s : State) (p : Port) : (s.judged p).sets = s.sets := by cases p <;> rfl
@[simp] theorem State.judged_marks (s : State) (p : Port) : (s.judged p).marks = s.marks := by cases p <;> rfl
@[simp] theorem State.judged_deliveries (s : State) (p : Port) : (s.judged p).deliveries = s.deliveries := by cases p <;> rfl
@[simp] theorem State.judged_stages (s : State) (p : Port) : (s.judged p).stages = s.stages := by cases p <;> rfl
@[simp] theorem State.judged_billing (s : State) (p : Port) : (s.judged p).billing = s.billing := by cases p <;> rfl
@[simp] theorem State.judged_tally (s : State) (p : Port) : (s.judged p).tally = s.tally := by cases p <;> rfl
@[simp] theorem State.judged_period (s : State) (p : Port) : (s.judged p).period = s.period := by cases p <;> rfl
@[simp] theorem State.judged_loader (s : State) (p : Port) : (s.judged p).loader = s.loader := by cases p <;> rfl
@[simp] theorem State.judged_planMem (s : State) (p : Port) : (s.judged p).planMem = s.planMem := by cases p <;> rfl
@[simp] theorem State.judged_tallyMem (s : State) (p : Port) : (s.judged p).tallyMem = s.tallyMem := by cases p <;> rfl
@[simp] theorem State.judged_planFitted (s : State) (p : Port) : (s.judged p).planFitted = s.planFitted := by cases p <;> rfl
@[simp] theorem State.judged_bank0Fitted (s : State) (p : Port) : (s.judged p).bank0Fitted = s.bank0Fitted := by cases p <;> rfl
@[simp] theorem State.judged_bank1Fitted (s : State) (p : Port) : (s.judged p).bank1Fitted = s.bank1Fitted := by cases p <;> rfl
@[simp] theorem State.judged_told (s : State) (p : Port) : (s.judged p).told = s.told := by cases p <;> rfl
@[simp] theorem State.judged_pending (s : State) (p : Port) : (s.judged p).pending = s.pending := by cases p <;> rfl

/-! ### State.answer -/

@[simp] theorem State.answer_clock (s : State) (p : Port) (r : Reply) : (s.answer p r).clock = s.clock := by cases p <;> rfl
@[simp] theorem State.answer_tenths (s : State) (p : Port) (r : Reply) : (s.answer p r).tenths = s.tenths := by cases p <;> rfl
@[simp] theorem State.answer_windows (s : State) (p : Port) (r : Reply) : (s.answer p r).windows = s.windows := by cases p <;> rfl
@[simp] theorem State.answer_line (s : State) (p : Port) (r : Reply) : (s.answer p r).line = s.line := by cases p <;> rfl
@[simp] theorem State.answer_sets (s : State) (p : Port) (r : Reply) : (s.answer p r).sets = s.sets := by cases p <;> rfl
@[simp] theorem State.answer_marks (s : State) (p : Port) (r : Reply) : (s.answer p r).marks = s.marks := by cases p <;> rfl
@[simp] theorem State.answer_deliveries (s : State) (p : Port) (r : Reply) : (s.answer p r).deliveries = s.deliveries := by cases p <;> rfl
@[simp] theorem State.answer_stages (s : State) (p : Port) (r : Reply) : (s.answer p r).stages = s.stages := by cases p <;> rfl
@[simp] theorem State.answer_billing (s : State) (p : Port) (r : Reply) : (s.answer p r).billing = s.billing := by cases p <;> rfl
@[simp] theorem State.answer_tally (s : State) (p : Port) (r : Reply) : (s.answer p r).tally = s.tally := by cases p <;> rfl
@[simp] theorem State.answer_period (s : State) (p : Port) (r : Reply) : (s.answer p r).period = s.period := by cases p <;> rfl
@[simp] theorem State.answer_loader (s : State) (p : Port) (r : Reply) : (s.answer p r).loader = s.loader := by cases p <;> rfl
@[simp] theorem State.answer_planMem (s : State) (p : Port) (r : Reply) : (s.answer p r).planMem = s.planMem := by cases p <;> rfl
@[simp] theorem State.answer_tallyMem (s : State) (p : Port) (r : Reply) : (s.answer p r).tallyMem = s.tallyMem := by cases p <;> rfl
@[simp] theorem State.answer_planFitted (s : State) (p : Port) (r : Reply) : (s.answer p r).planFitted = s.planFitted := by cases p <;> rfl
@[simp] theorem State.answer_bank0Fitted (s : State) (p : Port) (r : Reply) : (s.answer p r).bank0Fitted = s.bank0Fitted := by cases p <;> rfl
@[simp] theorem State.answer_bank1Fitted (s : State) (p : Port) (r : Reply) : (s.answer p r).bank1Fitted = s.bank1Fitted := by cases p <;> rfl
@[simp] theorem State.answer_told (s : State) (p : Port) (r : Reply) : (s.answer p r).told = s.told := by cases p <;> rfl
@[simp] theorem State.answer_pending (s : State) (p : Port) (r : Reply) : (s.answer p r).pending = s.pending := by cases p <;> rfl

/-! ### State.post -/

@[simp] theorem State.post_clock (s : State) (k : NoticeKind) (d : List Byte) : (s.post k d).clock = s.clock := by unfold State.post; dsimp only; split <;> split <;> rfl
@[simp] theorem State.post_tenths (s : State) (k : NoticeKind) (d : List Byte) : (s.post k d).tenths = s.tenths := by unfold State.post; dsimp only; split <;> split <;> rfl
@[simp] theorem State.post_windows (s : State) (k : NoticeKind) (d : List Byte) : (s.post k d).windows = s.windows := by unfold State.post; dsimp only; split <;> split <;> rfl
@[simp] theorem State.post_line (s : State) (k : NoticeKind) (d : List Byte) : (s.post k d).line = s.line := by unfold State.post; dsimp only; split <;> split <;> rfl
@[simp] theorem State.post_sets (s : State) (k : NoticeKind) (d : List Byte) : (s.post k d).sets = s.sets := by unfold State.post; dsimp only; split <;> split <;> rfl
@[simp] theorem State.post_marks (s : State) (k : NoticeKind) (d : List Byte) : (s.post k d).marks = s.marks := by unfold State.post; dsimp only; split <;> split <;> rfl
@[simp] theorem State.post_deliveries (s : State) (k : NoticeKind) (d : List Byte) : (s.post k d).deliveries = s.deliveries := by unfold State.post; dsimp only; split <;> split <;> rfl
@[simp] theorem State.post_stages (s : State) (k : NoticeKind) (d : List Byte) : (s.post k d).stages = s.stages := by unfold State.post; dsimp only; split <;> split <;> rfl
@[simp] theorem State.post_billing (s : State) (k : NoticeKind) (d : List Byte) : (s.post k d).billing = s.billing := by unfold State.post; dsimp only; split <;> split <;> rfl
@[simp] theorem State.post_tally (s : State) (k : NoticeKind) (d : List Byte) : (s.post k d).tally = s.tally := by unfold State.post; dsimp only; split <;> split <;> rfl
@[simp] theorem State.post_period (s : State) (k : NoticeKind) (d : List Byte) : (s.post k d).period = s.period := by unfold State.post; dsimp only; split <;> split <;> rfl
@[simp] theorem State.post_loader (s : State) (k : NoticeKind) (d : List Byte) : (s.post k d).loader = s.loader := by unfold State.post; dsimp only; split <;> split <;> rfl
@[simp] theorem State.post_planMem (s : State) (k : NoticeKind) (d : List Byte) : (s.post k d).planMem = s.planMem := by unfold State.post; dsimp only; split <;> split <;> rfl
@[simp] theorem State.post_tallyMem (s : State) (k : NoticeKind) (d : List Byte) : (s.post k d).tallyMem = s.tallyMem := by unfold State.post; dsimp only; split <;> split <;> rfl
@[simp] theorem State.post_planFitted (s : State) (k : NoticeKind) (d : List Byte) : (s.post k d).planFitted = s.planFitted := by unfold State.post; dsimp only; split <;> split <;> rfl
@[simp] theorem State.post_bank0Fitted (s : State) (k : NoticeKind) (d : List Byte) : (s.post k d).bank0Fitted = s.bank0Fitted := by unfold State.post; dsimp only; split <;> split <;> rfl
@[simp] theorem State.post_bank1Fitted (s : State) (k : NoticeKind) (d : List Byte) : (s.post k d).bank1Fitted = s.bank1Fitted := by unfold State.post; dsimp only; split <;> split <;> rfl
@[simp] theorem State.post_told (s : State) (k : NoticeKind) (d : List Byte) : (s.post k d).told = s.told := by unfold State.post; dsimp only; split <;> split <;> rfl
@[simp] theorem State.post_pending (s : State) (k : NoticeKind) (d : List Byte) : (s.post k d).pending = s.pending := by unfold State.post; dsimp only; split <;> split <;> rfl

/-! ### State.transmit -/

@[simp] theorem State.transmit_clock (s : State) : (s.transmit).clock = s.clock := rfl
@[simp] theorem State.transmit_tenths (s : State) : (s.transmit).tenths = s.tenths := rfl
@[simp] theorem State.transmit_windows (s : State) : (s.transmit).windows = s.windows := rfl
@[simp] theorem State.transmit_line (s : State) : (s.transmit).line = s.line := rfl
@[simp] theorem State.transmit_sets (s : State) : (s.transmit).sets = s.sets := rfl
@[simp] theorem State.transmit_marks (s : State) : (s.transmit).marks = s.marks := rfl
@[simp] theorem State.transmit_deliveries (s : State) : (s.transmit).deliveries = s.deliveries := rfl
@[simp] theorem State.transmit_stages (s : State) : (s.transmit).stages = s.stages := rfl
@[simp] theorem State.transmit_billing (s : State) : (s.transmit).billing = s.billing := rfl
@[simp] theorem State.transmit_tally (s : State) : (s.transmit).tally = s.tally := rfl
@[simp] theorem State.transmit_period (s : State) : (s.transmit).period = s.period := rfl
@[simp] theorem State.transmit_loader (s : State) : (s.transmit).loader = s.loader := rfl
@[simp] theorem State.transmit_planMem (s : State) : (s.transmit).planMem = s.planMem := rfl
@[simp] theorem State.transmit_tallyMem (s : State) : (s.transmit).tallyMem = s.tallyMem := rfl
@[simp] theorem State.transmit_planFitted (s : State) : (s.transmit).planFitted = s.planFitted := rfl
@[simp] theorem State.transmit_bank0Fitted (s : State) : (s.transmit).bank0Fitted = s.bank0Fitted := rfl
@[simp] theorem State.transmit_bank1Fitted (s : State) : (s.transmit).bank1Fitted = s.bank1Fitted := rfl
@[simp] theorem State.transmit_told (s : State) : (s.transmit).told = s.told := rfl
@[simp] theorem State.transmit_pending (s : State) : (s.transmit).pending = s.pending := rfl

/-! ### State.tell -/

@[simp] theorem State.tell_yard (s : State) (m : Told) : (s.tell m).yard = s.yard := rfl
@[simp] theorem State.tell_office (s : State) (m : Told) : (s.tell m).office = s.office := rfl
@[simp] theorem State.tell_clock (s : State) (m : Told) : (s.tell m).clock = s.clock := rfl
@[simp] theorem State.tell_tenths (s : State) (m : Told) : (s.tell m).tenths = s.tenths := rfl
@[simp] theorem State.tell_windows (s : State) (m : Told) : (s.tell m).windows = s.windows := rfl
@[simp] theorem State.tell_line (s : State) (m : Told) : (s.tell m).line = s.line := rfl
@[simp] theorem State.tell_sets (s : State) (m : Told) : (s.tell m).sets = s.sets := rfl
@[simp] theorem State.tell_marks (s : State) (m : Told) : (s.tell m).marks = s.marks := rfl
@[simp] theorem State.tell_deliveries (s : State) (m : Told) : (s.tell m).deliveries = s.deliveries := rfl
@[simp] theorem State.tell_stages (s : State) (m : Told) : (s.tell m).stages = s.stages := rfl
@[simp] theorem State.tell_billing (s : State) (m : Told) : (s.tell m).billing = s.billing := rfl
@[simp] theorem State.tell_tally (s : State) (m : Told) : (s.tell m).tally = s.tally := rfl
@[simp] theorem State.tell_period (s : State) (m : Told) : (s.tell m).period = s.period := rfl
@[simp] theorem State.tell_loader (s : State) (m : Told) : (s.tell m).loader = s.loader := rfl
@[simp] theorem State.tell_planMem (s : State) (m : Told) : (s.tell m).planMem = s.planMem := rfl
@[simp] theorem State.tell_tallyMem (s : State) (m : Told) : (s.tell m).tallyMem = s.tallyMem := rfl
@[simp] theorem State.tell_planFitted (s : State) (m : Told) : (s.tell m).planFitted = s.planFitted := rfl
@[simp] theorem State.tell_bank0Fitted (s : State) (m : Told) : (s.tell m).bank0Fitted = s.bank0Fitted := rfl
@[simp] theorem State.tell_bank1Fitted (s : State) (m : Told) : (s.tell m).bank1Fitted = s.bank1Fitted := rfl
@[simp] theorem State.tell_pending (s : State) (m : Told) : (s.tell m).pending = s.pending := rfl

/-! ### State.changeSet -/

@[simp] theorem State.changeSet_yard (s : State) (i : Nat) (f : SetRecord → SetRecord) : (s.changeSet i f).yard = s.yard := rfl
@[simp] theorem State.changeSet_office (s : State) (i : Nat) (f : SetRecord → SetRecord) : (s.changeSet i f).office = s.office := rfl
@[simp] theorem State.changeSet_clock (s : State) (i : Nat) (f : SetRecord → SetRecord) : (s.changeSet i f).clock = s.clock := rfl
@[simp] theorem State.changeSet_tenths (s : State) (i : Nat) (f : SetRecord → SetRecord) : (s.changeSet i f).tenths = s.tenths := rfl
@[simp] theorem State.changeSet_windows (s : State) (i : Nat) (f : SetRecord → SetRecord) : (s.changeSet i f).windows = s.windows := rfl
@[simp] theorem State.changeSet_line (s : State) (i : Nat) (f : SetRecord → SetRecord) : (s.changeSet i f).line = s.line := rfl
@[simp] theorem State.changeSet_marks (s : State) (i : Nat) (f : SetRecord → SetRecord) : (s.changeSet i f).marks = s.marks := rfl
@[simp] theorem State.changeSet_deliveries (s : State) (i : Nat) (f : SetRecord → SetRecord) : (s.changeSet i f).deliveries = s.deliveries := rfl
@[simp] theorem State.changeSet_stages (s : State) (i : Nat) (f : SetRecord → SetRecord) : (s.changeSet i f).stages = s.stages := rfl
@[simp] theorem State.changeSet_billing (s : State) (i : Nat) (f : SetRecord → SetRecord) : (s.changeSet i f).billing = s.billing := rfl
@[simp] theorem State.changeSet_tally (s : State) (i : Nat) (f : SetRecord → SetRecord) : (s.changeSet i f).tally = s.tally := rfl
@[simp] theorem State.changeSet_period (s : State) (i : Nat) (f : SetRecord → SetRecord) : (s.changeSet i f).period = s.period := rfl
@[simp] theorem State.changeSet_loader (s : State) (i : Nat) (f : SetRecord → SetRecord) : (s.changeSet i f).loader = s.loader := rfl
@[simp] theorem State.changeSet_planMem (s : State) (i : Nat) (f : SetRecord → SetRecord) : (s.changeSet i f).planMem = s.planMem := rfl
@[simp] theorem State.changeSet_tallyMem (s : State) (i : Nat) (f : SetRecord → SetRecord) : (s.changeSet i f).tallyMem = s.tallyMem := rfl
@[simp] theorem State.changeSet_planFitted (s : State) (i : Nat) (f : SetRecord → SetRecord) : (s.changeSet i f).planFitted = s.planFitted := rfl
@[simp] theorem State.changeSet_bank0Fitted (s : State) (i : Nat) (f : SetRecord → SetRecord) : (s.changeSet i f).bank0Fitted = s.bank0Fitted := rfl
@[simp] theorem State.changeSet_bank1Fitted (s : State) (i : Nat) (f : SetRecord → SetRecord) : (s.changeSet i f).bank1Fitted = s.bank1Fitted := rfl
@[simp] theorem State.changeSet_told (s : State) (i : Nat) (f : SetRecord → SetRecord) : (s.changeSet i f).told = s.told := rfl
@[simp] theorem State.changeSet_pending (s : State) (i : Nat) (f : SetRecord → SetRecord) : (s.changeSet i f).pending = s.pending := rfl

/-! ### State.changeStage -/

@[simp] theorem State.changeStage_yard (s : State) (k : Nat) (f : Stage → Stage) : (s.changeStage k f).yard = s.yard := rfl
@[simp] theorem State.changeStage_office (s : State) (k : Nat) (f : Stage → Stage) : (s.changeStage k f).office = s.office := rfl
@[simp] theorem State.changeStage_clock (s : State) (k : Nat) (f : Stage → Stage) : (s.changeStage k f).clock = s.clock := rfl
@[simp] theorem State.changeStage_tenths (s : State) (k : Nat) (f : Stage → Stage) : (s.changeStage k f).tenths = s.tenths := rfl
@[simp] theorem State.changeStage_windows (s : State) (k : Nat) (f : Stage → Stage) : (s.changeStage k f).windows = s.windows := rfl
@[simp] theorem State.changeStage_line (s : State) (k : Nat) (f : Stage → Stage) : (s.changeStage k f).line = s.line := rfl
@[simp] theorem State.changeStage_sets (s : State) (k : Nat) (f : Stage → Stage) : (s.changeStage k f).sets = s.sets := rfl
@[simp] theorem State.changeStage_marks (s : State) (k : Nat) (f : Stage → Stage) : (s.changeStage k f).marks = s.marks := rfl
@[simp] theorem State.changeStage_deliveries (s : State) (k : Nat) (f : Stage → Stage) : (s.changeStage k f).deliveries = s.deliveries := rfl
@[simp] theorem State.changeStage_billing (s : State) (k : Nat) (f : Stage → Stage) : (s.changeStage k f).billing = s.billing := rfl
@[simp] theorem State.changeStage_tally (s : State) (k : Nat) (f : Stage → Stage) : (s.changeStage k f).tally = s.tally := rfl
@[simp] theorem State.changeStage_period (s : State) (k : Nat) (f : Stage → Stage) : (s.changeStage k f).period = s.period := rfl
@[simp] theorem State.changeStage_loader (s : State) (k : Nat) (f : Stage → Stage) : (s.changeStage k f).loader = s.loader := rfl
@[simp] theorem State.changeStage_planMem (s : State) (k : Nat) (f : Stage → Stage) : (s.changeStage k f).planMem = s.planMem := rfl
@[simp] theorem State.changeStage_tallyMem (s : State) (k : Nat) (f : Stage → Stage) : (s.changeStage k f).tallyMem = s.tallyMem := rfl
@[simp] theorem State.changeStage_planFitted (s : State) (k : Nat) (f : Stage → Stage) : (s.changeStage k f).planFitted = s.planFitted := rfl
@[simp] theorem State.changeStage_bank0Fitted (s : State) (k : Nat) (f : Stage → Stage) : (s.changeStage k f).bank0Fitted = s.bank0Fitted := rfl
@[simp] theorem State.changeStage_bank1Fitted (s : State) (k : Nat) (f : Stage → Stage) : (s.changeStage k f).bank1Fitted = s.bank1Fitted := rfl
@[simp] theorem State.changeStage_told (s : State) (k : Nat) (f : Stage → Stage) : (s.changeStage k f).told = s.told := rfl
@[simp] theorem State.changeStage_pending (s : State) (k : Nat) (f : Stage → Stage) : (s.changeStage k f).pending = s.pending := rfl

/-! ### State.changeContext -/

@[simp] theorem State.changeContext_yard (s : State) (k : Nat) (f : Changeover → Changeover) : (s.changeContext k f).yard = s.yard := rfl
@[simp] theorem State.changeContext_office (s : State) (k : Nat) (f : Changeover → Changeover) : (s.changeContext k f).office = s.office := rfl
@[simp] theorem State.changeContext_clock (s : State) (k : Nat) (f : Changeover → Changeover) : (s.changeContext k f).clock = s.clock := rfl
@[simp] theorem State.changeContext_tenths (s : State) (k : Nat) (f : Changeover → Changeover) : (s.changeContext k f).tenths = s.tenths := rfl
@[simp] theorem State.changeContext_windows (s : State) (k : Nat) (f : Changeover → Changeover) : (s.changeContext k f).windows = s.windows := rfl
@[simp] theorem State.changeContext_line (s : State) (k : Nat) (f : Changeover → Changeover) : (s.changeContext k f).line = s.line := rfl
@[simp] theorem State.changeContext_sets (s : State) (k : Nat) (f : Changeover → Changeover) : (s.changeContext k f).sets = s.sets := rfl
@[simp] theorem State.changeContext_marks (s : State) (k : Nat) (f : Changeover → Changeover) : (s.changeContext k f).marks = s.marks := rfl
@[simp] theorem State.changeContext_deliveries (s : State) (k : Nat) (f : Changeover → Changeover) : (s.changeContext k f).deliveries = s.deliveries := rfl
@[simp] theorem State.changeContext_billing (s : State) (k : Nat) (f : Changeover → Changeover) : (s.changeContext k f).billing = s.billing := rfl
@[simp] theorem State.changeContext_tally (s : State) (k : Nat) (f : Changeover → Changeover) : (s.changeContext k f).tally = s.tally := rfl
@[simp] theorem State.changeContext_period (s : State) (k : Nat) (f : Changeover → Changeover) : (s.changeContext k f).period = s.period := rfl
@[simp] theorem State.changeContext_loader (s : State) (k : Nat) (f : Changeover → Changeover) : (s.changeContext k f).loader = s.loader := rfl
@[simp] theorem State.changeContext_planMem (s : State) (k : Nat) (f : Changeover → Changeover) : (s.changeContext k f).planMem = s.planMem := rfl
@[simp] theorem State.changeContext_tallyMem (s : State) (k : Nat) (f : Changeover → Changeover) : (s.changeContext k f).tallyMem = s.tallyMem := rfl
@[simp] theorem State.changeContext_planFitted (s : State) (k : Nat) (f : Changeover → Changeover) : (s.changeContext k f).planFitted = s.planFitted := rfl
@[simp] theorem State.changeContext_bank0Fitted (s : State) (k : Nat) (f : Changeover → Changeover) : (s.changeContext k f).bank0Fitted = s.bank0Fitted := rfl
@[simp] theorem State.changeContext_bank1Fitted (s : State) (k : Nat) (f : Changeover → Changeover) : (s.changeContext k f).bank1Fitted = s.bank1Fitted := rfl
@[simp] theorem State.changeContext_told (s : State) (k : Nat) (f : Changeover → Changeover) : (s.changeContext k f).told = s.told := rfl
@[simp] theorem State.changeContext_pending (s : State) (k : Nat) (f : Changeover → Changeover) : (s.changeContext k f).pending = s.pending := rfl

/-! ### State.setChannel -/

@[simp] theorem State.setChannel_yard (s : State) (c : Nat) (q : ChannelState) : (s.setChannel c q).yard = s.yard := rfl
@[simp] theorem State.setChannel_office (s : State) (c : Nat) (q : ChannelState) : (s.setChannel c q).office = s.office := rfl
@[simp] theorem State.setChannel_clock (s : State) (c : Nat) (q : ChannelState) : (s.setChannel c q).clock = s.clock := rfl
@[simp] theorem State.setChannel_tenths (s : State) (c : Nat) (q : ChannelState) : (s.setChannel c q).tenths = s.tenths := rfl
@[simp] theorem State.setChannel_windows (s : State) (c : Nat) (q : ChannelState) : (s.setChannel c q).windows = s.windows := rfl
@[simp] theorem State.setChannel_line (s : State) (c : Nat) (q : ChannelState) : (s.setChannel c q).line = s.line := rfl
@[simp] theorem State.setChannel_sets (s : State) (c : Nat) (q : ChannelState) : (s.setChannel c q).sets = s.sets := rfl
@[simp] theorem State.setChannel_marks (s : State) (c : Nat) (q : ChannelState) : (s.setChannel c q).marks = s.marks := rfl
@[simp] theorem State.setChannel_stages (s : State) (c : Nat) (q : ChannelState) : (s.setChannel c q).stages = s.stages := rfl
@[simp] theorem State.setChannel_billing (s : State) (c : Nat) (q : ChannelState) : (s.setChannel c q).billing = s.billing := rfl
@[simp] theorem State.setChannel_tally (s : State) (c : Nat) (q : ChannelState) : (s.setChannel c q).tally = s.tally := rfl
@[simp] theorem State.setChannel_period (s : State) (c : Nat) (q : ChannelState) : (s.setChannel c q).period = s.period := rfl
@[simp] theorem State.setChannel_loader (s : State) (c : Nat) (q : ChannelState) : (s.setChannel c q).loader = s.loader := rfl
@[simp] theorem State.setChannel_planMem (s : State) (c : Nat) (q : ChannelState) : (s.setChannel c q).planMem = s.planMem := rfl
@[simp] theorem State.setChannel_tallyMem (s : State) (c : Nat) (q : ChannelState) : (s.setChannel c q).tallyMem = s.tallyMem := rfl
@[simp] theorem State.setChannel_planFitted (s : State) (c : Nat) (q : ChannelState) : (s.setChannel c q).planFitted = s.planFitted := rfl
@[simp] theorem State.setChannel_bank0Fitted (s : State) (c : Nat) (q : ChannelState) : (s.setChannel c q).bank0Fitted = s.bank0Fitted := rfl
@[simp] theorem State.setChannel_bank1Fitted (s : State) (c : Nat) (q : ChannelState) : (s.setChannel c q).bank1Fitted = s.bank1Fitted := rfl
@[simp] theorem State.setChannel_told (s : State) (c : Nat) (q : ChannelState) : (s.setChannel c q).told = s.told := rfl
@[simp] theorem State.setChannel_pending (s : State) (c : Nat) (q : ChannelState) : (s.setChannel c q).pending = s.pending := rfl

/-! ### State.changeDelivery -/

@[simp] theorem State.changeDelivery_yard (s : State) (c : Nat) (f : Delivery → Delivery) : (s.changeDelivery c f).yard = s.yard := rfl
@[simp] theorem State.changeDelivery_office (s : State) (c : Nat) (f : Delivery → Delivery) : (s.changeDelivery c f).office = s.office := rfl
@[simp] theorem State.changeDelivery_clock (s : State) (c : Nat) (f : Delivery → Delivery) : (s.changeDelivery c f).clock = s.clock := rfl
@[simp] theorem State.changeDelivery_tenths (s : State) (c : Nat) (f : Delivery → Delivery) : (s.changeDelivery c f).tenths = s.tenths := rfl
@[simp] theorem State.changeDelivery_windows (s : State) (c : Nat) (f : Delivery → Delivery) : (s.changeDelivery c f).windows = s.windows := rfl
@[simp] theorem State.changeDelivery_line (s : State) (c : Nat) (f : Delivery → Delivery) : (s.changeDelivery c f).line = s.line := rfl
@[simp] theorem State.changeDelivery_sets (s : State) (c : Nat) (f : Delivery → Delivery) : (s.changeDelivery c f).sets = s.sets := rfl
@[simp] theorem State.changeDelivery_marks (s : State) (c : Nat) (f : Delivery → Delivery) : (s.changeDelivery c f).marks = s.marks := rfl
@[simp] theorem State.changeDelivery_stages (s : State) (c : Nat) (f : Delivery → Delivery) : (s.changeDelivery c f).stages = s.stages := rfl
@[simp] theorem State.changeDelivery_billing (s : State) (c : Nat) (f : Delivery → Delivery) : (s.changeDelivery c f).billing = s.billing := rfl
@[simp] theorem State.changeDelivery_tally (s : State) (c : Nat) (f : Delivery → Delivery) : (s.changeDelivery c f).tally = s.tally := rfl
@[simp] theorem State.changeDelivery_period (s : State) (c : Nat) (f : Delivery → Delivery) : (s.changeDelivery c f).period = s.period := rfl
@[simp] theorem State.changeDelivery_loader (s : State) (c : Nat) (f : Delivery → Delivery) : (s.changeDelivery c f).loader = s.loader := rfl
@[simp] theorem State.changeDelivery_planMem (s : State) (c : Nat) (f : Delivery → Delivery) : (s.changeDelivery c f).planMem = s.planMem := rfl
@[simp] theorem State.changeDelivery_tallyMem (s : State) (c : Nat) (f : Delivery → Delivery) : (s.changeDelivery c f).tallyMem = s.tallyMem := rfl
@[simp] theorem State.changeDelivery_planFitted (s : State) (c : Nat) (f : Delivery → Delivery) : (s.changeDelivery c f).planFitted = s.planFitted := rfl
@[simp] theorem State.changeDelivery_bank0Fitted (s : State) (c : Nat) (f : Delivery → Delivery) : (s.changeDelivery c f).bank0Fitted = s.bank0Fitted := rfl
@[simp] theorem State.changeDelivery_bank1Fitted (s : State) (c : Nat) (f : Delivery → Delivery) : (s.changeDelivery c f).bank1Fitted = s.bank1Fitted := rfl
@[simp] theorem State.changeDelivery_told (s : State) (c : Nat) (f : Delivery → Delivery) : (s.changeDelivery c f).told = s.told := rfl
@[simp] theorem State.changeDelivery_pending (s : State) (c : Nat) (f : Delivery → Delivery) : (s.changeDelivery c f).pending = s.pending := rfl

/-! ### State.changeCircuit -/

@[simp] theorem State.changeCircuit_yard (s : State) (c : Nat) (f : Circuit → Circuit) : (s.changeCircuit c f).yard = s.yard := rfl
@[simp] theorem State.changeCircuit_office (s : State) (c : Nat) (f : Circuit → Circuit) : (s.changeCircuit c f).office = s.office := rfl
@[simp] theorem State.changeCircuit_clock (s : State) (c : Nat) (f : Circuit → Circuit) : (s.changeCircuit c f).clock = s.clock := rfl
@[simp] theorem State.changeCircuit_tenths (s : State) (c : Nat) (f : Circuit → Circuit) : (s.changeCircuit c f).tenths = s.tenths := rfl
@[simp] theorem State.changeCircuit_windows (s : State) (c : Nat) (f : Circuit → Circuit) : (s.changeCircuit c f).windows = s.windows := rfl
@[simp] theorem State.changeCircuit_line (s : State) (c : Nat) (f : Circuit → Circuit) : (s.changeCircuit c f).line = s.line := rfl
@[simp] theorem State.changeCircuit_sets (s : State) (c : Nat) (f : Circuit → Circuit) : (s.changeCircuit c f).sets = s.sets := rfl
@[simp] theorem State.changeCircuit_marks (s : State) (c : Nat) (f : Circuit → Circuit) : (s.changeCircuit c f).marks = s.marks := rfl
@[simp] theorem State.changeCircuit_deliveries (s : State) (c : Nat) (f : Circuit → Circuit) : (s.changeCircuit c f).deliveries = s.deliveries := rfl
@[simp] theorem State.changeCircuit_stages (s : State) (c : Nat) (f : Circuit → Circuit) : (s.changeCircuit c f).stages = s.stages := rfl
@[simp] theorem State.changeCircuit_tally (s : State) (c : Nat) (f : Circuit → Circuit) : (s.changeCircuit c f).tally = s.tally := rfl
@[simp] theorem State.changeCircuit_period (s : State) (c : Nat) (f : Circuit → Circuit) : (s.changeCircuit c f).period = s.period := rfl
@[simp] theorem State.changeCircuit_loader (s : State) (c : Nat) (f : Circuit → Circuit) : (s.changeCircuit c f).loader = s.loader := rfl
@[simp] theorem State.changeCircuit_planMem (s : State) (c : Nat) (f : Circuit → Circuit) : (s.changeCircuit c f).planMem = s.planMem := rfl
@[simp] theorem State.changeCircuit_tallyMem (s : State) (c : Nat) (f : Circuit → Circuit) : (s.changeCircuit c f).tallyMem = s.tallyMem := rfl
@[simp] theorem State.changeCircuit_planFitted (s : State) (c : Nat) (f : Circuit → Circuit) : (s.changeCircuit c f).planFitted = s.planFitted := rfl
@[simp] theorem State.changeCircuit_bank0Fitted (s : State) (c : Nat) (f : Circuit → Circuit) : (s.changeCircuit c f).bank0Fitted = s.bank0Fitted := rfl
@[simp] theorem State.changeCircuit_bank1Fitted (s : State) (c : Nat) (f : Circuit → Circuit) : (s.changeCircuit c f).bank1Fitted = s.bank1Fitted := rfl
@[simp] theorem State.changeCircuit_told (s : State) (c : Nat) (f : Circuit → Circuit) : (s.changeCircuit c f).told = s.told := rfl
@[simp] theorem State.changeCircuit_pending (s : State) (c : Nat) (f : Circuit → Circuit) : (s.changeCircuit c f).pending = s.pending := rfl

/-! ### State.setLine -/

@[simp] theorem State.setLine_yard (s : State) (n : Nat) (l : Option CacheLine) : (s.setLine n l).yard = s.yard := rfl
@[simp] theorem State.setLine_office (s : State) (n : Nat) (l : Option CacheLine) : (s.setLine n l).office = s.office := rfl
@[simp] theorem State.setLine_clock (s : State) (n : Nat) (l : Option CacheLine) : (s.setLine n l).clock = s.clock := rfl
@[simp] theorem State.setLine_tenths (s : State) (n : Nat) (l : Option CacheLine) : (s.setLine n l).tenths = s.tenths := rfl
@[simp] theorem State.setLine_windows (s : State) (n : Nat) (l : Option CacheLine) : (s.setLine n l).windows = s.windows := rfl
@[simp] theorem State.setLine_line (s : State) (n : Nat) (l : Option CacheLine) : (s.setLine n l).line = s.line := rfl
@[simp] theorem State.setLine_sets (s : State) (n : Nat) (l : Option CacheLine) : (s.setLine n l).sets = s.sets := rfl
@[simp] theorem State.setLine_marks (s : State) (n : Nat) (l : Option CacheLine) : (s.setLine n l).marks = s.marks := rfl
@[simp] theorem State.setLine_deliveries (s : State) (n : Nat) (l : Option CacheLine) : (s.setLine n l).deliveries = s.deliveries := rfl
@[simp] theorem State.setLine_stages (s : State) (n : Nat) (l : Option CacheLine) : (s.setLine n l).stages = s.stages := rfl
@[simp] theorem State.setLine_billing (s : State) (n : Nat) (l : Option CacheLine) : (s.setLine n l).billing = s.billing := rfl
@[simp] theorem State.setLine_period (s : State) (n : Nat) (l : Option CacheLine) : (s.setLine n l).period = s.period := rfl
@[simp] theorem State.setLine_loader (s : State) (n : Nat) (l : Option CacheLine) : (s.setLine n l).loader = s.loader := rfl
@[simp] theorem State.setLine_planMem (s : State) (n : Nat) (l : Option CacheLine) : (s.setLine n l).planMem = s.planMem := rfl
@[simp] theorem State.setLine_tallyMem (s : State) (n : Nat) (l : Option CacheLine) : (s.setLine n l).tallyMem = s.tallyMem := rfl
@[simp] theorem State.setLine_planFitted (s : State) (n : Nat) (l : Option CacheLine) : (s.setLine n l).planFitted = s.planFitted := rfl
@[simp] theorem State.setLine_bank0Fitted (s : State) (n : Nat) (l : Option CacheLine) : (s.setLine n l).bank0Fitted = s.bank0Fitted := rfl
@[simp] theorem State.setLine_bank1Fitted (s : State) (n : Nat) (l : Option CacheLine) : (s.setLine n l).bank1Fitted = s.bank1Fitted := rfl
@[simp] theorem State.setLine_told (s : State) (n : Nat) (l : Option CacheLine) : (s.setLine n l).told = s.told := rfl
@[simp] theorem State.setLine_pending (s : State) (n : Nat) (l : Option CacheLine) : (s.setLine n l).pending = s.pending := rfl

/-! ### State.requeue -/

@[simp] theorem State.requeue_yard (s : State) (o : WorkOp) : (s.requeue o).yard = s.yard := rfl
@[simp] theorem State.requeue_office (s : State) (o : WorkOp) : (s.requeue o).office = s.office := rfl
@[simp] theorem State.requeue_clock (s : State) (o : WorkOp) : (s.requeue o).clock = s.clock := rfl
@[simp] theorem State.requeue_tenths (s : State) (o : WorkOp) : (s.requeue o).tenths = s.tenths := rfl
@[simp] theorem State.requeue_windows (s : State) (o : WorkOp) : (s.requeue o).windows = s.windows := rfl
@[simp] theorem State.requeue_line (s : State) (o : WorkOp) : (s.requeue o).line = s.line := rfl
@[simp] theorem State.requeue_sets (s : State) (o : WorkOp) : (s.requeue o).sets = s.sets := rfl
@[simp] theorem State.requeue_marks (s : State) (o : WorkOp) : (s.requeue o).marks = s.marks := rfl
@[simp] theorem State.requeue_deliveries (s : State) (o : WorkOp) : (s.requeue o).deliveries = s.deliveries := rfl
@[simp] theorem State.requeue_stages (s : State) (o : WorkOp) : (s.requeue o).stages = s.stages := rfl
@[simp] theorem State.requeue_billing (s : State) (o : WorkOp) : (s.requeue o).billing = s.billing := rfl
@[simp] theorem State.requeue_period (s : State) (o : WorkOp) : (s.requeue o).period = s.period := rfl
@[simp] theorem State.requeue_loader (s : State) (o : WorkOp) : (s.requeue o).loader = s.loader := rfl
@[simp] theorem State.requeue_planMem (s : State) (o : WorkOp) : (s.requeue o).planMem = s.planMem := rfl
@[simp] theorem State.requeue_tallyMem (s : State) (o : WorkOp) : (s.requeue o).tallyMem = s.tallyMem := rfl
@[simp] theorem State.requeue_planFitted (s : State) (o : WorkOp) : (s.requeue o).planFitted = s.planFitted := rfl
@[simp] theorem State.requeue_bank0Fitted (s : State) (o : WorkOp) : (s.requeue o).bank0Fitted = s.bank0Fitted := rfl
@[simp] theorem State.requeue_bank1Fitted (s : State) (o : WorkOp) : (s.requeue o).bank1Fitted = s.bank1Fitted := rfl
@[simp] theorem State.requeue_told (s : State) (o : WorkOp) : (s.requeue o).told = s.told := rfl
@[simp] theorem State.requeue_pending (s : State) (o : WorkOp) : (s.requeue o).pending = s.pending := rfl

/-! ### State.writeRecord -/

@[simp] theorem State.writeRecord_yard (s : State) (a : Nat) (r : AccountRecord) : (s.writeRecord a r).yard = s.yard := by unfold State.writeRecord; split <;> rfl
@[simp] theorem State.writeRecord_office (s : State) (a : Nat) (r : AccountRecord) : (s.writeRecord a r).office = s.office := by unfold State.writeRecord; split <;> rfl
@[simp] theorem State.writeRecord_clock (s : State) (a : Nat) (r : AccountRecord) : (s.writeRecord a r).clock = s.clock := by unfold State.writeRecord; split <;> rfl
@[simp] theorem State.writeRecord_tenths (s : State) (a : Nat) (r : AccountRecord) : (s.writeRecord a r).tenths = s.tenths := by unfold State.writeRecord; split <;> rfl
@[simp] theorem State.writeRecord_windows (s : State) (a : Nat) (r : AccountRecord) : (s.writeRecord a r).windows = s.windows := by unfold State.writeRecord; split <;> rfl
@[simp] theorem State.writeRecord_line (s : State) (a : Nat) (r : AccountRecord) : (s.writeRecord a r).line = s.line := by unfold State.writeRecord; split <;> rfl
@[simp] theorem State.writeRecord_sets (s : State) (a : Nat) (r : AccountRecord) : (s.writeRecord a r).sets = s.sets := by unfold State.writeRecord; split <;> rfl
@[simp] theorem State.writeRecord_marks (s : State) (a : Nat) (r : AccountRecord) : (s.writeRecord a r).marks = s.marks := by unfold State.writeRecord; split <;> rfl
@[simp] theorem State.writeRecord_deliveries (s : State) (a : Nat) (r : AccountRecord) : (s.writeRecord a r).deliveries = s.deliveries := by unfold State.writeRecord; split <;> rfl
@[simp] theorem State.writeRecord_stages (s : State) (a : Nat) (r : AccountRecord) : (s.writeRecord a r).stages = s.stages := by unfold State.writeRecord; split <;> rfl
@[simp] theorem State.writeRecord_billing (s : State) (a : Nat) (r : AccountRecord) : (s.writeRecord a r).billing = s.billing := by unfold State.writeRecord; split <;> rfl
@[simp] theorem State.writeRecord_tally (s : State) (a : Nat) (r : AccountRecord) : (s.writeRecord a r).tally = s.tally := by unfold State.writeRecord; split <;> rfl
@[simp] theorem State.writeRecord_period (s : State) (a : Nat) (r : AccountRecord) : (s.writeRecord a r).period = s.period := by unfold State.writeRecord; split <;> rfl
@[simp] theorem State.writeRecord_loader (s : State) (a : Nat) (r : AccountRecord) : (s.writeRecord a r).loader = s.loader := by unfold State.writeRecord; split <;> rfl
@[simp] theorem State.writeRecord_planMem (s : State) (a : Nat) (r : AccountRecord) : (s.writeRecord a r).planMem = s.planMem := by unfold State.writeRecord; split <;> rfl
@[simp] theorem State.writeRecord_planFitted (s : State) (a : Nat) (r : AccountRecord) : (s.writeRecord a r).planFitted = s.planFitted := by unfold State.writeRecord; split <;> rfl
@[simp] theorem State.writeRecord_bank0Fitted (s : State) (a : Nat) (r : AccountRecord) : (s.writeRecord a r).bank0Fitted = s.bank0Fitted := by unfold State.writeRecord; split <;> rfl
@[simp] theorem State.writeRecord_bank1Fitted (s : State) (a : Nat) (r : AccountRecord) : (s.writeRecord a r).bank1Fitted = s.bank1Fitted := by unfold State.writeRecord; split <;> rfl
@[simp] theorem State.writeRecord_told (s : State) (a : Nat) (r : AccountRecord) : (s.writeRecord a r).told = s.told := by unfold State.writeRecord; split <;> rfl
@[simp] theorem State.writeRecord_pending (s : State) (a : Nat) (r : AccountRecord) : (s.writeRecord a r).pending = s.pending := by unfold State.writeRecord; split <;> rfl

end Sys2Proof.Machine
end

