-- ==== Sys2Proof/Laws/Requests.lean ====
section
/-! SUPPORT. What taking, judging and answering a request can do, said once: a handler's refusal, or the owner's answer. -/

namespace Sys2Proof.Machine

/-! ### Ports -/

theorem State.port_withPort (s : State) (p q : Port) (f : PortState → PortState) :
    (s.withPort p f).port q = if p = q then f (s.port q) else s.port q := by
  cases p <;> cases q <;> rfl

@[simp] theorem State.port_withPort_same (s : State) (p : Port) (f : PortState → PortState) :
    (s.withPort p f).port p = f (s.port p) := by
  cases p <;> rfl

@[simp] theorem State.withPort_withPort (s : State) (p : Port) (f g : PortState → PortState) :
    (s.withPort p f).withPort p g = s.withPort p fun q => g (f q) := by
  cases p <;> rfl

/-- A change that leaves a port as it is changes nothing. -/
theorem State.withPort_eq_self (s : State) (p : Port) (f : PortState → PortState) (h : f (s.port p) = s.port p) :
    s.withPort p f = s := by
  cases p <;> (simp only [State.port] at h; simp only [State.withPort, h])

theorem State.port_judged (s : State) (p : Port) :
    (s.judged p).port p =
      { s.port p with inProgress := (s.port p).inProgress.map fun r => { r with judged := true } } := by
  cases p <;> rfl

theorem State.port_answer (s : State) (p : Port) (r : Reply) :
    (s.answer p r).port p = { s.port p with waiting := some r } := by
  cases p <;> rfl

/-- What a step's end does to a port. -/
theorem State.port_transmit (s : State) (p : Port) :
    s.transmit.port p = (s.port p).kick.takeNext !s.loader.resetDue := by
  cases p <;> rfl

/-! ### Taking -/

/-- A handler that has a request in progress takes none. -/
theorem PortState.takeNext_busy {q : PortState} {r : InProgress} (h : q.inProgress = some r) (b : Bool) :
    q.takeNext b = q := by
  simp [takeNext, h]

/-- An empty buffer gives nothing to take. -/
theorem PortState.takeNext_empty {q : PortState} (h : q.buffer = []) (b : Bool) : q.takeNext b = q := by
  cases hp : q.inProgress <;> simp [takeNext, hp, h]

/-- A free handler takes the oldest frame. -/
theorem PortState.takeNext_free {q : PortState} {f : Frame} {rest : List Frame} (h : q.inProgress = none)
    (hb : q.buffer = f :: rest) : q.takeNext true = { q with buffer := rest, inProgress := some ⟨f, false⟩ } := by
  simp [takeNext, h, hb]

/-- While a soft reset is due no frame is taken. -/
theorem PortState.takeNext_due (q : PortState) : q.takeNext false = q := by
  unfold takeNext
  split <;> simp

/-! ### Judging -/

/-- Everything `serveWhere` can do with a request it judges. -/
theorem serveWhere_of_request {accepts : Frame → Bool} {p : Port} {row : RequestRow} {owner : List Nat → State → Answered}
    {s : State} {f : Frame} (hr : (s.port p).inProgress = some ⟨f, false⟩) (hacc : accepts f = true) :
    serveWhere accepts p row owner s =
      match judge p row s.loader.ready f.payload with
      | .error r => (s.judged p).answer p r
      | .ok fields => deliver p (owner fields (s.judged p)) := by
  unfold serveWhere
  rw [hr]
  exact if_pos (by simpa using hacc)

/-- A request judged before, one of another kind, or none: nothing happens. -/
theorem serveWhere_of_not {accepts : Frame → Bool} {p : Port} {row : RequestRow} {owner : List Nat → State → Answered}
    {s : State} (h : ∀ r, (s.port p).inProgress = some r → r.judged = true ∨ accepts r.toFrame = false) :
    serveWhere accepts p row owner s = s := by
  unfold serveWhere
  split
  · rfl
  · next r hr => rcases h r hr with h | h <;> simp [h]

/-- R6, checks 2 and 3 passed: the layout decides. -/
theorem judge_ready {p : Port} {row : RequestRow} (h : row.allowedOn p = true) (payload : List Byte) :
    judge p row true payload = row.layout.parse payload := by
  simp [judge, h]

/-- A request that passes the handler's checks is its owner's. -/
theorem serve_of_parse {p : Port} {row : RequestRow} {owner : List Nat → State → Answered} {s : State} {f : Frame}
    {fields : List Nat} (hr : (s.port p).inProgress = some ⟨f, false⟩) (hready : s.loader.ready = true)
    (hk : f.kind = row.kind) (hport : row.allowedOn p = true) (hparse : row.layout.parse f.payload = .ok fields) :
    serve p row owner s = deliver p (owner fields (s.judged p)) := by
  rw [serve, serveWhere_of_request hr (by simp [hk]), hready, judge_ready hport, hparse]

theorem deliver_some (p : Port) (s : State) (r : Reply) : deliver p (s, some r) = s.answer p r := rfl

theorem deliver_none (p : Port) (s : State) : deliver p (s, none) = s := rfl

theorem deliver_done (p : Port) (s : State) (data : List Byte) : deliver p (done s data) = s.answer p (.done data) := rfl

/-- Checks in order: none holds. -/
theorem unlessRefused_of_none {s : State} {checks : List (Bool × Reply)} {act : Answered}
    (h : ∀ c ∈ checks, c.1 = false) : unlessRefused s checks act = act := by
  have : checks.find? (fun c => c.1) = none := by
    rw [List.find?_eq_none]
    intro c hc
    simp [h c hc]
  simp [unlessRefused, this]

/-- Checks in order: the first that holds decides. -/
theorem unlessRefused_of_first {s : State} {before after : List (Bool × Reply)} {r : Reply} {act : Answered}
    (h : ∀ c ∈ before, c.1 = false) : unlessRefused s (before ++ (true, r) :: after) act = (s, some r) := by
  have : (before ++ (true, r) :: after).find? (fun c => c.1) = some (true, r) := by
    rw [List.find?_append, List.find?_eq_none.mpr (by intro c hc; simp [h c hc])]
    rfl
  simp [unlessRefused, this]

/-- Owners' checks, as a statement says them: what is to be shown of each refusal and of the act is what is to be shown of
`unlessRefused`. -/
theorem firstDecides_of {s : State} {checks : List (Bool × Reply)} {act : Answered} (P : Answered → Prop)
    (h : P (unlessRefused s checks act)) : FirstDecides checks (fun r => P (s, some r)) (P act) := by
  constructor
  · rintro before r after rfl hb
    rwa [unlessRefused_of_first hb] at h
  · intro hn
    rwa [unlessRefused_of_none hn] at h

/-- A refusal of an owner has changed nothing; the act is finished. -/
theorem finished_unlessRefused {s : State} {checks : List (Bool × Reply)} {act : Answered}
    (h : ∀ c ∈ checks, ∃ code field window, c.2 = .refused code field window) :
    finished (unlessRefused s checks act) = unlessRefused s checks (finished act) := by
  unfold unlessRefused
  split
  · next c hc =>
    obtain ⟨code, field, window, e⟩ := h c (List.mem_of_find?_eq_some hc)
    simp [finished, e]
  · rfl

theorem finished_done (s : State) (data : List Byte) : finished (done s data) = done s.finish data := rfl

/-- An offered request that passes the handler's checks is its owner's. -/
theorem serve_of_offered {s : State} {p : Port} {row : RequestRow} {owner : List Nat → State → Answered} {tag : Byte}
    {payload : List Byte} {fields : List Nat} (h : Offered s p row.kind tag payload)
    (hport : row.allowedOn p = true) (hparse : row.layout.parse payload = .ok fields) :
    serve p row owner s = deliver p (owner fields (s.judged p)) :=
  serve_of_parse h.request h.ready rfl hport hparse

/-- What a request command does with a request of its kind that it judges: the handler's checks, then its owner. -/
theorem exec_request {c : Instr} {p : Port} {row : RequestRow} (hc : requestOf c = some (p, row)) :
    ∃ owner, ∀ s, exec c s = ends (serveWhere (fun f => f.kind == row.kind && takesForm c f) p row owner s) := by
  cases c <;> simp only [requestOf, Option.some.injEq, Prod.mk.injEq, reduceCtorEq] at hc <;> obtain ⟨rfl, rfl⟩ := hc
  case clearMapAll =>
    refine ⟨ownClearMapAll, fun s => ?_⟩
    simp only [exec, execClearMapAll, takesForm, takesClearMap, ← Bool.and_assoc, Bool.and_self]
    rfl
  case clearMapUnpinned =>
    refine ⟨ownClearMapUnpinned, fun s => ?_⟩
    simp only [exec, execClearMapUnpinned, takesForm, takesClearMap, ← Bool.and_assoc, Bool.and_self]
    rfl
  case clearMapCircuit =>
    refine ⟨ownClearMapCircuit, fun s => ?_⟩
    simp only [exec, execClearMapCircuit, takesForm, takesClearMap, ← Bool.and_assoc, Bool.and_self]
    rfl
  case identify progress => exact ⟨ownIdentify progress, fun s => by simp only [takesForm, Bool.and_true]; rfl⟩
  case resetPart => exact ⟨ownResetPart, fun s => by simp only [takesForm, Bool.and_true]; rfl⟩
  case writePlan => exact ⟨ownWritePlan, fun s => by simp only [takesForm, Bool.and_true]; rfl⟩
  case setClock => exact ⟨ownSetClock, fun s => by simp only [takesForm, Bool.and_true]; rfl⟩
  case startClock => exact ⟨ownStartClock, fun s => by simp only [takesForm, Bool.and_true]; rfl⟩
  case stopClock => exact ⟨ownStopClock, fun s => by simp only [takesForm, Bool.and_true]; rfl⟩
  case readClock => exact ⟨ownReadClock, fun s => by simp only [takesForm, Bool.and_true]; rfl⟩
  case writeTariff => exact ⟨ownWriteTariff, fun s => by simp only [takesForm, Bool.and_true]; rfl⟩
  case readTariff => exact ⟨ownReadTariff, fun s => by simp only [takesForm, Bool.and_true]; rfl⟩
  case setSweep => exact ⟨ownSetSweep, fun s => by simp only [takesForm, Bool.and_true]; rfl⟩
  case writeWindow => exact ⟨ownWriteWindow, fun s => by simp only [takesForm, Bool.and_true]; rfl⟩
  case readWindow => exact ⟨ownReadWindow, fun s => by simp only [takesForm, Bool.and_true]; rfl⟩
  case enrolStation => exact ⟨finishing ownEnrolStation, fun s => by simp only [takesForm, Bool.and_true]; rfl⟩
  case removeStation => exact ⟨finishing ownRemoveStation, fun s => by simp only [takesForm, Bool.and_true]; rfl⟩
  case readStation => exact ⟨ownReadStation, fun s => by simp only [takesForm, Bool.and_true]; rfl⟩
  case leaseSet => exact ⟨ownLeaseSet, fun s => by simp only [takesForm, Bool.and_true]; rfl⟩
  case releaseSet => exact ⟨ownReleaseSet, fun s => by simp only [takesForm, Bool.and_true]; rfl⟩
  case startSet => exact ⟨finishing ownStartSet, fun s => by simp only [takesForm, Bool.and_true]; rfl⟩
  case stopSet => exact ⟨finishing ownStopSet, fun s => by simp only [takesForm, Bool.and_true]; rfl⟩
  case clearFault => exact ⟨finishing ownClearFault, fun s => by simp only [takesForm, Bool.and_true]; rfl⟩
  case ackAlarms => exact ⟨ownAckAlarms, fun s => by simp only [takesForm, Bool.and_true]; rfl⟩
  case setMarks => exact ⟨ownSetMarks, fun s => by simp only [takesForm, Bool.and_true]; rfl⟩
  case readSet => exact ⟨ownReadSet, fun s => by simp only [takesForm, Bool.and_true]; rfl⟩
  case openDelivery => exact ⟨finishing ownOpenDelivery, fun s => by simp only [takesForm, Bool.and_true]; rfl⟩
  case holdDelivery => exact ⟨finishing ownHoldDelivery, fun s => by simp only [takesForm, Bool.and_true]; rfl⟩
  case resumeDelivery => exact ⟨finishing ownResumeDelivery, fun s => by simp only [takesForm, Bool.and_true]; rfl⟩
  case finishDelivery => exact ⟨finishing ownFinishDelivery, fun s => by simp only [takesForm, Bool.and_true]; rfl⟩
  case cancelDelivery => exact ⟨finishing ownCancelDelivery, fun s => by simp only [takesForm, Bool.and_true]; rfl⟩
  case readChannel => exact ⟨ownReadChannel, fun s => by simp only [takesForm, Bool.and_true]; rfl⟩
  case takeDeliveryRecord => exact ⟨ownTakeDeliveryRecord, fun s => by simp only [takesForm, Bool.and_true]; rfl⟩
  case assignInput => exact ⟨ownAssignInput, fun s => by simp only [takesForm, Bool.and_true]; rfl⟩
  case setStage => exact ⟨ownSetStage, fun s => by simp only [takesForm, Bool.and_true]; rfl⟩
  case changeOver => exact ⟨finishing ownChangeOver, fun s => by simp only [takesForm, Bool.and_true]; rfl⟩
  case abortChangeover => exact ⟨finishing ownAbortChangeover, fun s => by simp only [takesForm, Bool.and_true]; rfl⟩
  case restoreStage => exact ⟨finishing ownRestoreStage, fun s => by simp only [takesForm, Bool.and_true]; rfl⟩
  case readStage => exact ⟨ownReadStage, fun s => by simp only [takesForm, Bool.and_true]; rfl⟩
  case installMap => exact ⟨ownInstallMap, fun s => by simp only [takesForm, Bool.and_true]; rfl⟩
  case readMiss => exact ⟨ownReadMiss, fun s => by simp only [takesForm, Bool.and_true]; rfl⟩
  case readMap => exact ⟨ownReadMap, fun s => by simp only [takesForm, Bool.and_true]; rfl⟩
  case readCircuit => exact ⟨ownReadCircuit, fun s => by simp only [takesForm, Bool.and_true]; rfl⟩
  case statement p => exact ⟨ownStatement p, fun s => by simp only [takesForm, Bool.and_true]; rfl⟩
  case rewriteAccount => exact ⟨ownRewriteAccount, fun s => by simp only [takesForm, Bool.and_true]; rfl⟩
  case flushTotals => exact ⟨ownFlushTotals, fun s => by simp only [takesForm, Bool.and_true]; rfl⟩
  case initTally => exact ⟨ownInitTally, fun s => by simp only [takesForm, Bool.and_true]; rfl⟩
  case readTallyFault => exact ⟨ownReadTallyFault, fun s => by simp only [takesForm, Bool.and_true]; rfl⟩
  case closePeriod => exact ⟨finishing ownClosePeriod, fun s => by simp only [takesForm, Bool.and_true]; rfl⟩
  case takeHireRecord => exact ⟨ownTakeHireRecord, fun s => by simp only [takesForm, Bool.and_true]; rfl⟩
  case readPeriod => exact ⟨ownReadPeriod, fun s => by simp only [takesForm, Bool.and_true]; rfl⟩

/-! ### Payload fields -/

theorem parseFixed_of_length {widths : List Nat} {bs : List Byte} (h : bs.length = widths.sum) :
    parseFixed widths bs = .ok (fieldValues widths bs) := by
  have hm : ∀ (ws : List Nat) (k n : Nat), ws.sum ≤ n → firstMissing k ws n = none := by
    intro ws
    induction ws with
    | nil => intros; rfl
    | cons w ws ih =>
      intro k n hn
      simp only [List.sum_cons] at hn
      rw [firstMissing, if_neg (by omega), ih _ _ (by omega)]
  rw [parseFixed, hm widths 1 bs.length (by omega), h]
  simp

end Sys2Proof.Machine
end

