-- ==== Sys2Proof/Laws/Tables.lean ====
section
/-! SUPPORT. What the table operations do to each entry. -/

namespace Sys2Proof

variable {n : Nat} {α β : Type}

@[simp] theorem Table.get_replicate (x : α) (i : Nat) :
    (Table.replicate n x).get i = if i < n then some x else none := by
  simp [Table.get, Table.replicate, List.getElem?_replicate]

@[simp] theorem Table.get_modify (t : Table n α) (i j : Nat) (f : α → α) :
    (t.modify i f).get j = if i = j then (t.get j).map f else t.get j := by
  simp only [Table.get, Table.modify, List.getElem?_modify]
  split <;> simp

@[simp] theorem Table.get_set (t : Table n α) (i j : Nat) (x : α) :
    (t.set i x).get j = if i = j then (t.get j).map fun _ => x else t.get j := by
  simp [Table.set]

@[simp] theorem Table.get_map (t : Table n α) (f : α → β) (j : Nat) : (t.map f).get j = (t.get j).map f := by
  simp [Table.get, Table.map]

@[simp] theorem Table.get_mapIdx (t : Table n α) (f : Nat → α → β) (j : Nat) :
    (t.mapIdx f).get j = (t.get j).map (f j) := by
  simp only [Table.get, Table.mapIdx, List.getElem?_map, List.getElem?_zipIdx, Nat.zero_add]
  cases t.cells[j]? <;> rfl

theorem Table.get_eq_none (t : Table n α) {i : Nat} (h : n ≤ i) : t.get i = none := by
  simp [Table.get, t.size_eq, h]

theorem Table.get_isSome (t : Table n α) (i : Nat) : (t.get i).isSome = decide (i < n) := by
  have h := t.size_eq
  rw [Bool.eq_iff_iff, decide_eq_true_iff]
  simp [Table.get, h]

theorem Table.lt_of_get (t : Table n α) {i : Nat} {x : α} (h : t.get i = some x) : i < n := by
  have := t.get_isSome i
  rw [h] at this
  simpa using this.symm

/-- Tables agree where every entry agrees. -/
theorem Table.ext_get {t u : Table n α} (h : ∀ i, t.get i = u.get i) : t = u := by
  have : t.cells = u.cells := List.ext_getElem? h
  cases t; cases u; cases this; rfl

/-- A change of an entry whose value is known is a replacement. -/
theorem Table.modify_of_get (t : Table n α) {i : Nat} {x : α} (f : α → α) (h : t.get i = some x) :
    t.modify i f = t.set i (f x) := by
  refine Table.ext_get fun j => ?_
  simp only [Table.get_modify, Table.get_set]
  split
  · subst_vars; simp [h]
  · rfl

/-- A change of an entry just replaced. -/
@[simp] theorem Table.modify_set (t : Table n α) (i : Nat) (x : α) (f : α → α) :
    (t.set i x).modify i f = t.set i (f x) := by
  refine Table.ext_get fun j => ?_
  simp only [Table.get_modify, Table.get_set]
  split
  · simp [Option.map_map]; rfl
  · rfl

/-- The last of two replacements of an entry stands. -/
@[simp] theorem Table.set_set (t : Table n α) (i : Nat) (x y : α) : (t.set i x).set i y = t.set i y :=
  t.modify_set i x fun _ => y

/-- Replacing an entry by its value changes nothing. -/
theorem Table.set_of_get (t : Table n α) {i : Nat} {x : α} (h : t.get i = some x) : t.set i x = t := by
  refine Table.ext_get fun j => ?_
  rw [Table.get_set]
  split
  · subst_vars; simp [h]
  · rfl

/-- A replaced entry reads as its new value. -/
theorem Table.get_set_self (t : Table n α) {i : Nat} {x : α} (y : α) (h : t.get i = some x) : (t.set i y).get i = some y := by
  simp [h]

/-- `find` gives the first entry that passes. -/
theorem Table.find_eq_some (t : Table n α) (p : α → Bool) (i : Nat) :
    t.find p = some i ↔ (∃ x, t.get i = some x ∧ p x = true) ∧ ∀ j < i, ∀ x, t.get j = some x → p x = false := by
  have hlen := t.size_eq
  unfold Table.find
  constructor
  · intro h
    have hlt : t.cells.findIdx p < t.cells.length := by
      by_contra hc
      simp [hlen] at hc
      simp [Nat.not_lt.mpr hc] at h
    rw [if_pos (by omega)] at h
    cases h
    refine ⟨⟨t.cells[t.cells.findIdx p], by simp [Table.get, hlt], List.findIdx_getElem⟩, ?_⟩
    intro j hj x hx
    have hjl : j < t.cells.length := by omega
    simp only [Table.get, List.getElem?_eq_getElem hjl, Option.some.injEq] at hx
    subst hx
    simpa using List.not_of_lt_findIdx hj
  · rintro ⟨⟨x, hx, hp⟩, hmin⟩
    have hi : i < t.cells.length := by rw [hlen]; exact t.lt_of_get hx
    have hx' : t.cells[i] = x := by
      simpa only [Table.get, List.getElem?_eq_getElem hi, Option.some.injEq] using hx
    have : t.cells.findIdx p = i := by
      rw [List.findIdx_eq hi]
      refine ⟨by rw [hx']; exact hp, ?_⟩
      intro j hj
      exact hmin j hj _ (by simp [Table.get, List.getElem?_eq_getElem (Nat.lt_trans hj hi)])
    rw [this, if_pos (by omega)]

/-- `find` gives nothing where no entry passes. -/
theorem Table.find_eq_none (t : Table n α) (p : α → Bool) :
    t.find p = none ↔ ∀ i x, t.get i = some x → p x = false := by
  have hlen := t.size_eq
  unfold Table.find
  constructor
  · intro h i x hx
    have hge : t.cells.length ≤ t.cells.findIdx p := by
      by_contra hc
      rw [if_pos (by omega)] at h
      exact absurd h (by simp)
    have heq := List.findIdx_eq_length.mp (Nat.le_antisymm List.findIdx_le_length hge)
    have hmem : x ∈ t.cells := List.mem_of_getElem? hx
    simpa using heq x hmem
  · intro h
    have : t.cells.findIdx p = t.cells.length := by
      rw [List.findIdx_eq_length]
      intro x hx
      obtain ⟨i, hi, rfl⟩ := List.mem_iff_getElem.mp hx
      exact h i _ (by simp [Table.get, hi])
    rw [this, if_neg (by omega)]

end Sys2Proof
end

