-- ==== Sys2Proof/Laws/Keeps.lean ====
section
/-! SUPPORT. What the blocks do when they act on what they are told: `State.Keeps r s` says once what such work leaves as it
is on the way from `r` to `s`, and which laws of the device it keeps. -/

namespace Sys2Proof.Machine

/-- What the work of the yard's blocks leaves as it is, and what it keeps. -/
structure State.Keeps (r s : State) : Prop where
  yard : s.yard = { r.yard with notices := s.yard.notices, noticesDropped := s.yard.noticesDropped }
  office : s.office = { r.office with notices := s.office.notices, noticesDropped := s.office.noticesDropped }
  yardRoom : r.yard.notices.length ≤ Config.noticeCap → s.yard.notices.length ≤ Config.noticeCap
  officeRoom : r.office.notices.length ≤ Config.noticeCap → s.office.notices.length ≤ Config.noticeCap
  clock : s.clock = r.clock
  tenths : s.tenths = r.tenths
  windows : s.windows = r.windows
  marks : s.marks = r.marks
  stations : s.line.stations = r.line.stations
  queue : r.line.bounded → s.line.bounded
  channels : ∀ c, (s.channel c).map Channel.isIdle = (r.channel c).map Channel.isIdle
  log : s.deliveries.log = r.deliveries.log
  opened : s.deliveries.opened = r.deliveries.opened
  taken : s.deliveries.taken = r.deliveries.taken
  map : s.billing.map = r.billing.map
  books : r.booksBalance → s.booksBalance
  tally : s.tally = { r.tally with work := s.tally.work }
  period : r.period.placesKept → s.period.placesKept
  loader : s.loader = r.loader
  planMem : s.planMem = r.planMem
  tallyMem : s.tallyMem = r.tallyMem
  fitted : s.planFitted = r.planFitted ∧ s.bank0Fitted = r.bank0Fitted ∧ s.bank1Fitted = r.bank1Fitted
  pending : s.pending = r.pending

namespace State.Keeps

theorem refl (s : State) : s.Keeps s where
  yard := rfl
  office := rfl
  yardRoom := id
  officeRoom := id
  clock := rfl
  tenths := rfl
  windows := rfl
  marks := rfl
  stations := rfl
  queue := id
  channels _ := rfl
  log := rfl
  opened := rfl
  taken := rfl
  map := rfl
  books := id
  tally := rfl
  period := id
  loader := rfl
  planMem := rfl
  tallyMem := rfl
  fitted := ⟨rfl, rfl, rfl⟩
  pending := rfl

theorem trans {r s t : State} (h : r.Keeps s) (g : s.Keeps t) : r.Keeps t where
  yard := by rw [g.yard, h.yard]
  office := by rw [g.office, h.office]
  yardRoom x := g.yardRoom (h.yardRoom x)
  officeRoom x := g.officeRoom (h.officeRoom x)
  clock := g.clock.trans h.clock
  tenths := g.tenths.trans h.tenths
  windows := g.windows.trans h.windows
  marks := g.marks.trans h.marks
  stations := g.stations.trans h.stations
  queue x := g.queue (h.queue x)
  channels c := (g.channels c).trans (h.channels c)
  log := g.log.trans h.log
  opened := g.opened.trans h.opened
  taken := g.taken.trans h.taken
  map := g.map.trans h.map
  books x := g.books (h.books x)
  tally := by rw [g.tally, h.tally]
  period x := g.period (h.period x)
  loader := g.loader.trans h.loader
  planMem := g.planMem.trans h.planMem
  tallyMem := g.tallyMem.trans h.tallyMem
  fitted := ⟨g.fitted.1.trans h.fitted.1, g.fitted.2.1.trans h.fitted.2.1, g.fitted.2.2.trans h.fitted.2.2⟩
  pending := g.pending.trans h.pending

/-! ### Named updates -/

theorem PortState.notices_post {q : PortState} {n : Notice} (h : q.notices.length ≤ Config.noticeCap) :
    (q.post n).notices.length ≤ Config.noticeCap := by
  unfold PortState.post
  split
  · simp; omega
  · exact h

theorem PortState.post_eq (q : PortState) (n : Notice) :
    q.post n = { q with notices := (q.post n).notices, noticesDropped := (q.post n).noticesDropped } := by
  unfold PortState.post
  split <;> rfl

theorem post {r s : State} (h : r.Keeps s) (k : NoticeKind) (d : List Byte) : r.Keeps (s.post k d) := by
  refine h.trans ?_
  have hy : (s.post k d).yard = if k.goesTo .yard then s.yard.post ⟨k, s.now, d⟩ else s.yard := by
    unfold State.post; cases k.goesTo .yard <;> cases k.goesTo .office <;> rfl
  have ho : (s.post k d).office = if k.goesTo .office then s.office.post ⟨k, s.now, d⟩ else s.office := by
    unfold State.post; cases k.goesTo .yard <;> cases k.goesTo .office <;> rfl
  constructor
  · rw [hy]; split
    · exact PortState.post_eq _ _
    · rfl
  · rw [ho]; split
    · exact PortState.post_eq _ _
    · rfl
  · intro x; rw [hy]; split
    · exact PortState.notices_post x
    · exact x
  · intro x; rw [ho]; split
    · exact PortState.notices_post x
    · exact x
  all_goals simp [State.channel, State.booksBalance, State.circuit, State.billingFits]

theorem tell {r s : State} (h : r.Keeps s) (m : Told) : r.Keeps (s.tell m) := h.trans { refl s with }

theorem withTold {r s : State} (h : r.Keeps s) (l : List Told) : r.Keeps { s with told := l } := h.trans { refl s with }

theorem withSets {r s : State} (h : r.Keeps s) (x : Table 12 (Option SetRecord)) : r.Keeps { s with sets := x } :=
  h.trans { refl s with }

theorem changeSet {r s : State} (h : r.Keeps s) (i : Nat) (f : SetRecord → SetRecord) : r.Keeps (s.changeSet i f) :=
  h.withSets _

theorem withStages {r s : State} (h : r.Keeps s) (x : Table 8 Stage) : r.Keeps { s with stages := x } :=
  h.trans { refl s with }

theorem changeStage {r s : State} (h : r.Keeps s) (k : Nat) (f : Stage → Stage) : r.Keeps (s.changeStage k f) :=
  h.withStages _

theorem changeContext {r s : State} (h : r.Keeps s) (k : Nat) (f : Changeover → Changeover) :
    r.Keeps (s.changeContext k f) := h.changeStage _ _

/-- A change of the line that keeps the station table and the room of the queue. -/
theorem withLine {r s : State} (h : r.Keeps s) (l : Line) (hs : l.stations = s.line.stations)
    (hb : s.line.bounded → l.bounded) : r.Keeps { s with line := l } :=
  h.trans { refl s with stations := hs, queue := hb }

/-- A change of the line that leaves the queue and the station table alone. -/
theorem withLine_of_eq {r s : State} (h : r.Keeps s) (l : Line) (hs : l.stations = s.line.stations)
    (hq : l.queue = s.line.queue) : r.Keeps { s with line := l } :=
  h.withLine l hs (by unfold Line.bounded; rw [hq]; exact id)

theorem filter_bounded {l : Line} (p : Command → Bool) (h : l.bounded) :
    Line.bounded { l with queue := l.queue.filter p } := by
  unfold Line.bounded at h ⊢
  refine ⟨(List.length_filter_le _ _).trans h.1, ?_⟩
  refine le_trans ?_ h.2
  simp only [List.filter_filter, Bool.and_comm]
  rw [← List.filter_filter]
  exact List.length_filter_le _ _

theorem startSetTimer {r s : State} (h : r.Keeps s) (i : Nat) (k : SetTimerKind) (n : Nat) :
    r.Keeps (s.startSetTimer i k n) := h.changeSet _ _

theorem startStageTimer {r s : State} (h : r.Keeps s) (k : Nat) (t : StageTimerKind) (n : Nat) :
    r.Keeps (s.startStageTimer k t n) := h.changeContext _ _

theorem takeStep {r s : State} (h : r.Keeps s) (k : Nat) (q : ChangeStep) : r.Keeps (s.takeStep k q) := h.changeContext _ _

/-! ### Commands (04) -/

theorem bounded_append {l : Line} {c : Command} (hr : l.hasRoom c.rank = true) (h : l.bounded) :
    Line.bounded { l with queue := l.queue ++ [c] } := by
  unfold Line.bounded at h ⊢
  simp only [Line.hasRoom, Bool.and_eq_true, decide_eq_true_eq, Bool.or_eq_true, beq_iff_eq] at hr
  simp only [List.length_append, List.length_singleton, List.filter_append, List.filter_singleton]
  refine ⟨hr.1, ?_⟩
  rcases hr.2 with hs | hn
  · simp [hs]; exact h.2
  · cases hc : (c.rank != Rank.safety) <;> simp <;> omega

theorem place_of_room {r s : State} (h : r.Keeps s) (c : Command) (hr : s.line.hasRoom c.rank = true) :
    r.Keeps (s.place c) := by
  unfold State.place
  split
  · exact h.tell _
  · split
    · exact h.tell _
    · split
      · exact h.tell _
      · exact h.withLine _ rfl (bounded_append hr)

theorem place_of_ends {r s : State} (h : r.Keeps s) (c : Command)
    (he : ((s.line.station c.order.cls c.object).elim true fun st => st.state == .lost) = true) : r.Keeps (s.place c) := by
  unfold State.place
  split
  · exact h.tell _
  · split
    · exact h.tell _
    · rename_i st hst
      rw [hst] at he
      rw [if_pos (by simpa using he)]
      exact h.tell _

theorem offer {r s : State} (h : r.Keeps s) (o : Order) (object : Nat) (k : Rank) : r.Keeps (s.offer o object k) := by
  unfold State.offer
  have h' : r.Keeps { s with line.nextSerial := s.line.nextSerial + 1 } := h.withLine_of_eq _ rfl rfl
  dsimp only
  split
  · rename_i hc
    rw [Bool.or_eq_true] at hc
    rcases hc with he | hr
    · exact h'.place_of_ends _ he
    · exact h'.place_of_room _ hr
  · exact h'.withLine_of_eq _ rfl rfl

theorem admitAll {r : State} (cs : List Command) : ∀ {s : State}, r.Keeps s → r.Keeps (State.admitAll cs s) := by
  induction cs with
  | nil => intro s h; exact h
  | cons c rest ih =>
    intro s h
    unfold State.admitAll
    split
    · rename_i hr; exact ih (h.place_of_room c hr)
    · exact ih (h.withLine_of_eq _ rfl rfl)

theorem admitWaiting {r s : State} (h : r.Keeps s) : r.Keeps s.admitWaiting :=
  admitAll _ (h.withLine_of_eq _ rfl rfl)

theorem dropChosen_eq (l : Line) (n : Nat) : (l.dropChosen n).stations = l.stations ∧ (l.dropChosen n).queue = l.queue := by
  unfold Line.dropChosen
  repeat' split
  all_goals exact ⟨rfl, rfl⟩

theorem recallOne {r s : State} (h : r.Keeps s) (n : Nat) : r.Keeps (s.recall n) := by
  unfold State.recall
  split
  · exact h.withLine_of_eq _ rfl rfl
  · split
    · refine admitWaiting (h.withLine _ (dropChosen_eq _ _).1 ?_)
      intro hb
      unfold Line.bounded
      rw [(dropChosen_eq _ _).2]
      exact filter_bounded _ hb
    · exact h

theorem foldl {α : Type} {r : State} {f : State → α → State} (hf : ∀ s a, r.Keeps s → r.Keeps (f s a)) (l : List α) :
    ∀ {s : State}, r.Keeps s → r.Keeps (l.foldl f s) := by
  induction l with
  | nil => intro s h; exact h
  | cons a l ih => intro s h; exact ih (hf s a h)

theorem recallAll {r s : State} (h : r.Keeps s) (p : Command → Bool) : r.Keeps (s.recallAll p) :=
  foldl (fun _ c h => h.recallOne c.serial) _ h

theorem endOnly {r s : State} (h : r.Keeps s) (p : Command → Bool) (o : CommandOutcome) : r.Keeps (s.endOnly p o) := by
  unfold State.endOnly
  refine foldl (fun s c h => ?_) _ (h.withLine _ rfl (filter_bounded _))
  exact (h.withLine_of_eq _ (dropChosen_eq _ _).1 (dropChosen_eq _ _).2).tell _

theorem endCommands {r s : State} (h : r.Keeps s) (p : Command → Bool) (o : CommandOutcome) :
    r.Keeps (s.endCommands p o) := by
  unfold State.endCommands
  split
  · exact (h.endOnly p o).admitWaiting
  · exact h

theorem endWaiting {r s : State} (h : r.Keeps s) (p : Command → Bool) (o : CommandOutcome) :
    r.Keeps (s.endWaiting p o) :=
  foldl (fun _ _ h => h.tell _) _ (h.withLine_of_eq _ rfl rfl)

theorem endLostCommands {r s : State} (h : r.Keeps s) (c : StationClass) (object : Nat) :
    r.Keeps (s.endLostCommands c object) := by
  unfold State.endLostCommands
  split
  · exact (h.endCommands _ _).endWaiting _ _
  · exact h.endCommands _ _

/-! ### Sets (05) -/

theorem enterSet {r s : State} (h : r.Keeps s) (i : Nat) (q : SetState) : r.Keeps (s.enterSet i q) := by
  unfold State.enterSet
  split
  · exact h
  · exact ((h.changeSet _ _).post _ _).tell _

theorem offerAwaited {r s : State} (h : r.Keeps s) (i : Nat) (o : Order) : r.Keeps (s.offerAwaited i o) :=
  (h.changeSet _ _).offer _ _ _

theorem recallEngine {r s : State} (h : r.Keeps s) (i : Nat) : r.Keeps (s.recallEngine i) := h.recallAll _

theorem faultSet {r s : State} (h : r.Keeps s) (i : Nat) (c : FaultCause) : r.Keeps (s.faultSet i c) := by
  have h' : r.Keeps (if (s.setStateOf i).elim false EngineState.recallsOnFault then s.recallEngine i else s) := by
    split
    · exact h.recallEngine i
    · exact h
  unfold State.faultSet
  dsimp only
  split
  · exact (h'.enterSet _ _).offer _ _ _
  · exact h'.enterSet _ _

theorem warmSet {r s : State} (h : r.Keeps s) (i : Nat) : r.Keeps (s.warmSet i) := by
  unfold State.warmSet
  split
  · exact h
  · exact ((h.enterSet _ _).startSetTimer _ _ _).changeSet _ _

theorem crankingSeen {r s : State} (h : r.Keeps s) (i : Nat) : r.Keeps (s.crankingSeen i) :=
  (h.enterSet _ _).startSetTimer _ _ _

theorem startFromStopped {r s : State} (h : r.Keeps s) (i : Nat) : r.Keeps (s.startFromStopped i) :=
  (h.enterSet _ _).offerAwaited _ _

theorem recallAwaited {r s : State} (h : r.Keeps s) (i : Nat) : r.Keeps (s.recallAwaited i) := by
  unfold State.recallAwaited
  split
  · exact h.recallOne _
  · exact h

theorem reachStopped {r s : State} (h : r.Keeps s) (i : Nat) : r.Keeps (s.reachStopped i) := by
  unfold State.reachStopped
  dsimp only
  split
  · exact ((h.recallAwaited i).enterSet _ _).startFromStopped i
  · exact (h.recallAwaited i).enterSet _ _

theorem returnOnline {r s : State} (h : r.Keeps s) (i : Nat) : r.Keeps (s.returnOnline i) :=
  (h.recallAwaited i).enterSet _ _

theorem startOrder {r s : State} (h : r.Keeps s) (i : Nat) : r.Keeps (s.startOrder i) := by
  unfold State.startOrder
  split
  · exact h.startFromStopped i
  · split
    · exact h.returnOnline i
    · exact h.changeSet _ _
  all_goals exact h

theorem cancelStartOrder {r s : State} (h : r.Keeps s) (i : Nat) : r.Keeps (s.cancelStartOrder i) := h.changeSet _ _

theorem becomeFeeding {r s : State} (h : r.Keeps s) (i : Nat) : r.Keeps (s.becomeFeeding i) := by
  unfold State.becomeFeeding
  split
  · exact (h.recallEngine i).faultSet _ _
  · exact h.faultSet _ _
  · exact h.enterSet _ _
  · exact h.returnOnline i
  all_goals exact h

theorem setLost {r s : State} (h : r.Keeps s) (i : Nat) : r.Keeps (s.setLost i) := by
  unfold State.setLost
  split
  · exact h
  · split
    · exact h
    · refine enterSet ?_ _ _
      exact h.withLine_of_eq _ rfl rfl

theorem resyncSet {r s : State} (h : r.Keeps s) (i : Nat) (e : Engine) (b : Bool) : r.Keeps (s.resyncSet i e b) := by
  unfold State.resyncSet
  split
  · split
    · exact h.warmSet i
    · exact h.enterSet _ _
  · split
    · exact h.faultSet _ _
    · exact h.enterSet _ _
  · exact h.faultSet _ _
  · split
    · exact h.faultSet _ _
    · exact h.crankingSeen i

theorem runningInCranking {r s : State} (h : r.Keeps s) (i : Nat) (p : CrankPhase) (b : Bool) :
    r.Keeps (s.runningInCranking i p b) := by
  unfold State.runningInCranking
  split
  · exact (h.recallAwaited i).warmSet i
  · exact h

theorem judgeEngine {r s : State} (h : r.Keeps s) (i : Nat) (x : SetRecord) (e : Engine) :
    r.Keeps (s.judgeEngine i x e) := by
  unfold State.judgeEngine
  split
  · exact h.resyncSet _ _ _
  · dsimp only
    split
    · exact (h.changeSet _ _).resyncSet _ _ _
    · exact h.resyncSet _ _ _
  all_goals first
    | exact h
    | exact h.crankingSeen i
    | exact h.warmSet i
    | exact h.faultSet _ _
    | exact h.runningInCranking _ _ _
    | exact h.reachStopped i

theorem judgeFuel {r s : State} (h : r.Keeps s) (i : Nat) (x : SetReport) : r.Keeps (s.judgeFuel i x) := by
  unfold State.judgeFuel
  split
  · exact h
  · dsimp only
    generalize hm : (if s.deliveryOpen i then none else _ : Option Nat) = m
    cases m
    · exact h.changeSet _ _
    · exact (h.changeSet _ _).post _ _

theorem judgeFuelLow {r s : State} (h : r.Keeps s) (i : Nat) (x : SetReport) : r.Keeps (s.judgeFuelLow i x) := by
  unfold State.judgeFuelLow
  split
  · exact h
  · dsimp only
    split
    · exact ((h.changeSet _ _).post _ _).tell _
    · split
      · exact ((h.changeSet _ _).post _ _).tell _
      · exact h

theorem judgeAlarm {r s : State} (h : r.Keeps s) (i : Nat) (x : SetReport) : r.Keeps (s.judgeAlarm i x) := by
  unfold State.judgeAlarm
  split
  · exact h
  · split
    · exact (h.changeSet _ _).post _ _
    · exact h

theorem applySetReport {r s : State} (h : r.Keeps s) (i : Nat) (x : SetReport) : r.Keeps (s.applySetReport i x) := by
  unfold State.applySetReport
  split
  · exact h
  · exact ((((h.judgeEngine _ _ _).judgeFuel _ _).judgeFuelLow _ _).judgeAlarm _ _).changeSet _ _

theorem startEnded {r s : State} (h : r.Keeps s) (i n : Nat) (o : CommandOutcome) : r.Keeps (s.startEnded i n o) := by
  unfold State.startEnded
  split
  · exact (h.changeSet _ _).startSetTimer _ _ _
  · exact (h.changeSet _ _).startSetTimer _ _ _
  · exact h

theorem crankStopEnded {r s : State} (h : r.Keeps s) (i : Nat) (o : CommandOutcome) : r.Keeps (s.crankStopEnded i o) := by
  unfold State.crankStopEnded
  split
  · exact (h.changeSet _ _).startSetTimer _ _ _
  · exact h.faultSet _ _
  · exact h

theorem coolStopEnded {r s : State} (h : r.Keeps s) (i : Nat) (o : CommandOutcome) : r.Keeps (s.coolStopEnded i o) := by
  unfold State.coolStopEnded
  split
  · exact h.offerAwaited _ _
  · exact h.faultSet _ _
  · exact h

theorem clearJudged {r s : State} (h : r.Keeps s) (i : Nat) (e : Engine) : r.Keeps (s.clearJudged i e) := by
  unfold State.clearJudged
  split
  · exact h.enterSet _ _
  · split
    · exact h.changeSet _ _
    · exact h.enterSet _ _
  · exact h.changeSet _ _
  · split
    · exact h.changeSet _ _
    · exact h.crankingSeen i

theorem clearEnded {r s : State} (h : r.Keeps s) (i : Nat) (x : SetRecord) (o : CommandOutcome) :
    r.Keeps (s.clearEnded i x o) := by
  unfold State.clearEnded
  dsimp only
  split
  · exact (h.changeSet _ _).clearJudged _ _
  all_goals exact h.changeSet _ _

theorem engineOutcome {r s : State} (h : r.Keeps s) (c : Command) (o : CommandOutcome) : r.Keeps (s.engineOutcome c o) := by
  unfold State.engineOutcome
  split
  · exact h
  · split
    · split
      · exact h.startEnded _ _ _
      · exact h.crankStopEnded _ _
      · exact h.coolStopEnded _ _
      · exact h.clearEnded _ _ _
      · exact h
    · exact h

/-! ### Deliveries (06) -/

/-- A change of a channel that leaves it IDLE or leaves it out of IDLE. -/
theorem changeChannel {r s : State} (h : r.Keeps s) (c : Nat) (f : Channel → Channel)
    (hf : ∀ x, s.channel c = some x → (f x).isIdle = x.isIdle) : r.Keeps (s.changeChannel c f) := by
  refine h.trans { refl s with channels := ?_ }
  intro j
  simp only [State.channel, State.changeChannel, Table.get_modify]
  split
  · rename_i hj
    subst hj
    cases hx : s.deliveries.channels.get c with
    | none => rfl
    | some x => simp [hf x hx]
  · rfl

theorem setChannel {r s : State} (h : r.Keeps s) (c : Nat) (q : ChannelState)
    (hq : ∀ x y, s.channel c = some x → Channel.isIdle ⟨y, q⟩ = x.isIdle) : r.Keeps (s.setChannel c q) :=
  h.changeChannel _ _ fun x hx => hq x _ hx

theorem isIdle_change (x : Channel) (f : Delivery → Delivery) :
    Channel.isIdle { x with state := x.state.change f } = x.isIdle := by
  cases x with
  | mk rep q => cases q <;> rfl

theorem changeDelivery {r s : State} (h : r.Keeps s) (c : Nat) (f : Delivery → Delivery) : r.Keeps (s.changeDelivery c f) :=
  h.changeChannel _ _ fun _ _ => isIdle_change _ _

theorem offerHalt {r s : State} (h : r.Keeps s) (c : Nat) : r.Keeps (s.offerHalt c) := (h.changeDelivery _ _).offer _ _ _

theorem stopPump {r s : State} (h : r.Keeps s) (c : Nat) : r.Keeps (s.stopPump c) := by
  unfold State.stopPump
  split
  · exact foldl (fun _ k h => h.recallOne k.serial) _ (h.changeDelivery _ _)
  · split
    · exact h
    · exact h.offerHalt c

theorem runPump {r s : State} (h : r.Keeps s) (c : Nat) : r.Keeps (s.runPump c) := by
  unfold State.runPump
  dsimp only
  split
  · exact h.changeDelivery _ _
  · exact (h.changeDelivery _ _).offer _ _ _

/-- Whether a channel holds an open delivery. -/
theorem isIdle_of_delivery {s : State} {c : Nat} {d : Delivery} (h : s.delivery c = some d) :
    ∀ x, s.channel c = some x → x.isIdle = false := by
  intro x hx
  simp only [State.delivery, hx, Option.bind_some, Channel.open_] at h
  unfold Channel.isIdle
  cases hq : x.state <;> simp_all

theorem isIdle_of_state {s : State} {c : Nat} {q : ChannelState} (h : s.channelState c = some q) (hq : q ≠ .idle) :
    ∀ x, s.channel c = some x → x.isIdle = false := by
  intro x hx
  simp only [State.channelState, hx, Option.map_some, Option.some.injEq] at h
  unfold Channel.isIdle
  cases hx' : x.state <;> simp_all

/-- After work that keeps the channels, an open channel is open. -/
theorem open_of {r s : State} (h : r.Keeps s) {c : Nat} (hr : ∀ x, r.channel c = some x → x.isIdle = false) :
    ∀ x, s.channel c = some x → x.isIdle = false := by
  intro x hx
  have := h.channels c
  rw [hx] at this
  cases hy : r.channel c with
  | none => simp [hy] at this
  | some y => simp only [hy, Option.map_some, Option.some.injEq] at this; rw [this]; exact hr y hy

theorem haltChannel {r s : State} (h : r.Keeps s) (c : Nat) (d : Delivery) (k : HaltCause)
    (ho : ∀ x, s.channel c = some x → x.isIdle = false) : r.Keeps (s.haltChannel c d k) :=
  (h.setChannel c (.halted d k) fun x _ hx => (ho x hx).symm).post _ _

theorem settleChannel {r s : State} (h : r.Keeps s) (c : Nat) (d : Delivery)
    (ho : ∀ x, s.channel c = some x → x.isIdle = false) : r.Keeps (s.settleChannel c d) :=
  h.setChannel c _ fun x _ hx => (ho x hx).symm

theorem stopThen {r s : State} (h : r.Keeps s) (c : Nat) (k : State → Delivery → State)
    (hk : ∀ (t : State) (d : Delivery), r.Keeps t → (∀ x, t.channel c = some x → x.isIdle = false) → r.Keeps (k t d)) :
    r.Keeps (s.stopThen c k) := by
  unfold State.stopThen
  dsimp only
  split
  · rename_i d hd
    exact hk _ d (h.stopPump c) (isIdle_of_delivery hd)
  · exact h.stopPump c

theorem judgeFlow {r s : State} (h : r.Keeps s) (c : Nat) (d : Delivery)
    (ho : ∀ x, s.channel c = some x → x.isIdle = false) : r.Keeps (s.judgeFlow c d) := by
  unfold State.judgeFlow
  have h' := h.setChannel c (.flowing d) fun x _ hx => (ho x hx).symm
  split
  · exact h'.stopThen c _ fun t d ht ho => ht.settleChannel c d ho
  · exact h'

theorem judgeRunning {r s : State} (h : r.Keeps s) (c : Nat) (x : BowserReport) : r.Keeps (s.judgeRunning c x) := by
  unfold State.judgeRunning
  split
  · exact (h.changeDelivery _ _).stopPump c
  · exact h

theorem applyBowserReport {r s : State} (h : r.Keeps s) (c : Nat) (x : BowserReport) : r.Keeps (s.applyBowserReport c x) := by
  unfold State.applyBowserReport
  split
  · exact h
  · rename_i ch hc
    have h' : s.Keeps (s.changeChannel c fun ch => { ch with report := some x }) := (refl s).changeChannel _ _ fun _ _ => rfl
    have ho (hq : ch.isIdle = false) := h'.open_of (c := c) fun y hy => by
      rw [hc] at hy; cases hy; exact hq
    have hr := h.trans h'
    dsimp only
    cases hq : ch.state with
    | idle => exact hr
    | heldLog _ _ => exact hr
    | armed d =>
      have ho := ho (by simp [Channel.isIdle, hq])
      dsimp only
      split
      · exact hr.setChannel c _ fun y _ hy => (ho y hy).symm
      · exact hr.judgeFlow c _ ho
    | flowing d => exact hr.judgeFlow c _ (ho (by simp [Channel.isIdle, hq]))
    | halted d k =>
      have ho := ho (by simp [Channel.isIdle, hq])
      dsimp only
      refine judgeRunning ?_ _ _
      split
      · exact hr.settleChannel c _ ho
      · exact hr.setChannel c _ fun y _ hy => (ho y hy).symm
    | settling d n =>
      have ho := ho (by simp [Channel.isIdle, hq])
      exact judgeRunning (hr.setChannel c (.settling _ n) fun y _ hy => (ho y hy).symm) _ _

theorem judgeResume {r s : State} (h : r.Keeps s) (c : Nat) (d : Delivery)
    (ho : ∀ x, s.channel c = some x → x.isIdle = false) : r.Keeps (s.judgeResume c d) := by
  unfold State.judgeResume
  split
  · exact (h.setChannel c (.flowing d) fun x _ hx => (ho x hx).symm).runPump c
  · exact h

theorem judgeHigh {r s : State} (h : r.Keeps s) (c : Nat) (d : Delivery) (n : Nat) : r.Keeps (s.judgeHigh c d n) := by
  unfold State.judgeHigh
  split
  · exact h.stopThen c _ fun t d ht ho => ht.haltChannel c _ _ ho
  · exact h

theorem deliverySetReport {r s : State} (h : r.Keeps s) (i : Nat) (x : SetReport) (e : Option Word32) :
    r.Keeps (s.deliverySetReport i x e) := by
  unfold State.deliverySetReport
  split
  · exact h
  · rename_i c hc
    have h' := h.changeDelivery c fun d => d.addEnergy e
    dsimp only
    split
    · exact h'.judgeHigh _ _ _
    · rename_i d hq
      have ho := isIdle_of_state hq (by simp)
      have h'' := ((refl _).setChannel (s := s.changeDelivery c fun d => d.addEnergy e) c (.halted d .highMark)
        fun y _ hy => (ho y hy).symm)
      exact (h'.trans h'').judgeResume c d (h''.open_of ho)
    · rename_i d hq
      exact h'.judgeResume c d (isIdle_of_state hq (by simp))
    all_goals exact h'

theorem pumpRunEnded {r s : State} (h : r.Keeps s) (c : Nat) (o : CommandOutcome) : r.Keeps (s.pumpRunEnded c o) := by
  unfold State.pumpRunEnded
  split
  · exact h.stopPump c
  · exact h.stopPump c
  · rename_i hq; exact h.haltChannel c _ _ (isIdle_of_state hq (by simp))
  · rename_i hq; exact h.haltChannel c _ _ (isIdle_of_state hq (by simp))
  · exact h

theorem haltDone {r s : State} (h : r.Keeps s) (c : Nat) : r.Keeps (s.haltDone c) := by
  unfold State.haltDone
  have h' := h.changeDelivery c fun d => { d with haltConfirmed := true }
  dsimp only
  split
  · rename_i d hq; exact h'.judgeResume c d (isIdle_of_state hq (by simp))
  · exact h'

theorem haltUnanswered {r s : State} (h : r.Keeps s) (c : Nat) : r.Keeps (s.haltUnanswered c) := by
  unfold State.haltUnanswered
  repeat' split
  all_goals first | exact h | exact h.offerHalt c

theorem pumpHaltEnded {r s : State} (h : r.Keeps s) (k : Command) (o : CommandOutcome) : r.Keeps (s.pumpHaltEnded k o) := by
  unfold State.pumpHaltEnded
  repeat' split
  all_goals first | exact h | exact h.haltDone _ | exact h.haltUnanswered _

theorem pumpOutcome {r s : State} (h : r.Keeps s) (k : Command) (o : CommandOutcome) : r.Keeps (s.pumpOutcome k o) := by
  unfold State.pumpOutcome
  split
  · exact h.pumpRunEnded _ _
  · exact h.pumpHaltEnded _ _
  · exact h

theorem gaugeLost {r s : State} (h : r.Keeps s) (i : Nat) : r.Keeps (s.gaugeLost i) := by
  unfold State.gaugeLost
  split
  · exact h
  · rename_i c hc
    have h' := h.changeDelivery c fun d => { d with gaugeLost := true }
    dsimp only
    split
    · exact h'.stopThen c _ fun t d ht ho => ht.haltChannel c _ _ ho
    · exact h'.stopThen c _ fun t d ht ho => ht.haltChannel c _ _ ho
    · rename_i hq; exact h'.setChannel c _ fun y _ hy => (isIdle_of_state hq (by simp) y hy).symm
    all_goals exact h'

theorem meterLost {r s : State} (h : r.Keeps s) (c : Nat) : r.Keeps (s.meterLost c) := by
  unfold State.meterLost
  have h' := h.changeDelivery c fun d => { d with meterLost := true }
  dsimp only
  split
  · rename_i hq; exact h'.settleChannel c _ (isIdle_of_state hq (by simp))
  · rename_i hq; exact h'.settleChannel c _ (isIdle_of_state hq (by simp))
  · rename_i hq; exact h'.settleChannel c _ (isIdle_of_state hq (by simp))
  all_goals exact h'

/-! ### Circuits (08, 09) -/

/-- The books speak of the circuits and of the billings in flight alone. -/
theorem books_of_eq {s t : State} (hc : t.billing.circuits = s.billing.circuits) (hf : t.billing.inFlight = s.billing.inFlight)
    (h : s.booksBalance) : t.booksBalance := by
  unfold State.booksBalance State.billingFits State.circuit at *
  rw [hc, hf]
  exact h

theorem withBilling {r s : State} (h : r.Keeps s) (b : BillingEngine) (hm : b.map = s.billing.map)
    (hb : s.booksBalance → State.booksBalance { s with billing := b }) : r.Keeps { s with billing := b } :=
  h.trans { refl s with map := hm, books := hb }

theorem withBilling_of_eq {r s : State} (h : r.Keeps s) (b : BillingEngine) (hm : b.map = s.billing.map)
    (hc : b.circuits = s.billing.circuits) (hf : b.inFlight = s.billing.inFlight) : r.Keeps { s with billing := b } :=
  h.withBilling b hm (books_of_eq hc hf)

/-- What is left of the Billing engine beside circuits, map and billings in flight. -/
theorem withRest {r s : State} (h : r.Keeps s) (p : Nat) (m : Option MissLatch) (w : Option Sweep) (c : Bool)
    (x : Table 8 Stream) (l : List Waiter) :
    r.Keeps { s with
      billing := { s.billing with pointer := p, miss := m, sweep := w, closingCalled := c, streams := x, waiters := l } } :=
  h.withBilling_of_eq _ rfl rfl rfl

theorem withWork {r s : State} (h : r.Keeps s) (w : List WorkOp) : r.Keeps { s with tally := { s.tally with work := w } } :=
  h.trans { refl s with tally := rfl }

/-- Whether a change of a circuit keeps the books, with no billing of it in flight. -/
theorem books_changeCircuit {s : State} {c : Nat} {f : Circuit → Circuit} (hf : s.isInFlight c = false)
    (hr : ∀ r, s.circuit c = some r → r.balanced → (f r).balanced)
    (hu : ∀ r, s.circuit c = some r → r.blankIfUnread → (f r).blankIfUnread) (h : s.booksBalance) :
    (s.changeCircuit c f).booksBalance := by
  obtain ⟨hb, hn, hfit⟩ := h
  refine ⟨?_, hn, ?_⟩
  · intro j q hq
    simp only [State.circuit, State.changeCircuit, Table.get_modify] at hq
    by_cases hj : c = j
    · subst hj
      simp only [if_true, Option.map_eq_some_iff] at hq
      obtain ⟨r, hr', rfl⟩ := hq
      exact ⟨hr r hr' (hb _ r hr').1, hu r hr' (hb _ r hr').2⟩
    · rw [if_neg hj] at hq
      exact hb j q hq
  · intro b hb' hst q hq
    have hne : c ≠ b.circuit := by
      intro he
      have : s.isInFlight c = true := by
        simp only [State.isInFlight, List.any_eq_true, beq_iff_eq]
        exact ⟨b, hb', he.symm⟩
      rw [hf] at this; cases this
    simp only [State.circuit, State.changeCircuit, Table.get_modify, if_neg hne] at hq
    exact hfit b hb' hst q hq

theorem hold {r s : State} (h : r.Keeps s) (c : Nat) (cause : HoldCause) (hf : s.isInFlight c = false) :
    r.Keeps (s.hold c cause) :=
  h.withBilling _ rfl (books_changeCircuit hf (fun _ _ hb => hb) fun _ _ _ hs => by cases hs)

theorem balanced_reject (q : Circuit) (h : q.balanced) (st : CircuitState) (a b : Bool) :
    Circuit.balanced { q with
      state := st, straddled := a, implausible := b, rejected := q.rejected + q.unbilled.setWidth 64, cursor := q.last } := by
  unfold Circuit.balanced Circuit.unbilled at *
  dsimp only
  rw [← BitVec.add_assoc, BitVec.setWidth_add _ _ (by omega), h]
  have : ((q.last - q.cursor).setWidth 64).setWidth 32 = q.last - q.cursor := by
    simp
  rw [this]
  rw [BitVec.sub_eq_add_neg, BitVec.sub_eq_add_neg, BitVec.sub_eq_add_neg]
  rw [BitVec.add_comm q.cursor, BitVec.add_comm q.last, BitVec.add_assoc, ← BitVec.add_assoc q.cursor, ← BitVec.sub_eq_add_neg, BitVec.sub_self, BitVec.zero_add, BitVec.add_comm]

theorem reject {r s : State} (h : r.Keeps s) (c : Nat) (q : Circuit) (hf : s.isInFlight c = false)
    (hq : s.circuit c = some q) : r.Keeps (s.reject c q q.unbilled) := by
  unfold State.reject
  refine post ?_ _ _
  refine h.withBilling _ rfl (books_changeCircuit hf ?_ ?_)
  · intro x hx hb
    rw [hq] at hx
    cases hx
    exact balanced_reject _ hb _ _ _
  · intro _ _ _ hs
    cases hs

theorem latchMiss {r s : State} (h : r.Keeps s) (c : Nat) (q : Circuit) (d : Word32) : r.Keeps (s.latchMiss c q d) := by
  unfold State.latchMiss
  split
  · exact (h.withRest _ _ _ _ _ _).post _ _
  · split
    · exact h.withRest _ _ _ _ _ _
    · exact h.withRest _ _ _ _ _ _

theorem hitEntry {r s : State} (h : r.Keeps s) (e : Nat) : r.Keeps (s.hitEntry e) := by
  unfold State.hitEntry
  split
  · exact h.withRest _ _ _ _ _ _
  · exact h

theorem hitEntry_circuits (s : State) (e : Nat) :
    (s.hitEntry e).billing.circuits = s.billing.circuits ∧ (s.hitEntry e).billing.inFlight = s.billing.inFlight := by
  unfold State.hitEntry
  split <;> exact ⟨rfl, rfl⟩

theorem sendUpdate {r s : State} (h : r.Keeps s) (src : Source) (c : Nat) (q : Circuit) (e : MapEntry)
    (hf : s.isInFlight c = false) (hq : s.circuit c = some q) (hu : q.state ≠ .unread) :
    r.Keeps (s.sendUpdate src c q e q.unbilled) := by
  unfold State.sendUpdate
  dsimp only
  refine withWork (s := { s with
    billing := { s.billing with inFlight := s.billing.inFlight ++ [⟨src, c, q.last, q.unbilled, q.straddled, false⟩] } })
    (h.withBilling _ rfl ?_) _
  rintro ⟨hb, hn, hfit⟩
  refine ⟨hb, ?_, ?_⟩
  · simp only [List.map_append, List.map_cons, List.map_nil]
    rw [List.nodup_append]
    refine ⟨hn, by simp, ?_⟩
    intro a ha b hb' hab
    rw [List.mem_singleton] at hb'
    simp only [List.mem_map] at ha
    obtain ⟨x, hx, hxc⟩ := ha
    rw [hab, hb'] at hxc
    have : s.isInFlight c = true := by
      simp only [State.isInFlight, List.any_eq_true, beq_iff_eq]; exact ⟨x, hx, hxc⟩
    rw [hf] at this; cases this
  · intro b hb' hst x hx
    simp only [List.mem_append, List.mem_singleton] at hb'
    rcases hb' with hb' | hb'
    · exact hfit b hb' hst x hx
    · subst hb'
      have : x = q := by
        have hx' : s.circuit c = some x := hx
        rw [hq] at hx'; exact (Option.some.inj hx').symm
      subst this
      exact ⟨hu, rfl⟩

theorem runBilling {r s : State} (h : r.Keeps s) (src : Source) (c : Nat) (hf : s.isInFlight c = false) :
    r.Keeps (s.runBilling src c).1 := by
  unfold State.runBilling
  split
  · exact h
  · rename_i q hq
    split
    · exact h
    · rename_i hu
      have hu : q.state ≠ .unread := by intro he; simp [he] at hu
      split
      · exact h.reject c q hf hq
      · split
        · exact (h.hold c _ hf).latchMiss _ _ _
        · split
          · exact h
          · rename_i n _ _ e _
            have hh := hitEntry_circuits s n
            have hf' : (s.hitEntry n).isInFlight c = false := by
              unfold State.isInFlight at *; rw [hh.2]; exact hf
            have hq' : (s.hitEntry n).circuit c = some q := by
              unfold State.circuit at *; rw [hh.1]; exact hq
            dsimp only
            split
            · exact (h.hitEntry n).hold c _ hf'
            · split
              · exact (h.hitEntry n).hold c _ hf'
              · exact (h.hitEntry n).sendUpdate src c q e hf' hq' hu

theorem goOn {r s : State} (h : r.Keeps s) (src : Source) : r.Keeps (s.goOn src) := by
  unfold State.goOn
  dsimp only
  refine tell (h.withBilling_of_eq _ ?_ ?_ ?_) _ <;> cases src <;> rfl

theorem reach {r s : State} (h : r.Keeps s) (src : Source) (c : Nat) : r.Keeps (s.reach src c) := by
  unfold State.reach
  split
  · exact h.goOn src
  · split
    · exact h.withRest _ _ _ _ _ _
    · rename_i hf
      have h' := h.runBilling src c (by simpa using hf)
      split
      · rename_i t ht; rw [ht] at h'; exact h'
      · rename_i t ht; rw [ht] at h'; exact h'.goOn src

theorem startSweep {r s : State} (h : r.Keeps s) (k : SweepKind) : r.Keeps (s.startSweep k) :=
  (h.withRest _ _ _ _ _ _).tell _

theorem handOver {r s : State} (h : r.Keeps s) (q : BoundaryRequest) : r.Keeps (s.handOver q) := by
  unfold State.handOver
  dsimp only
  split
  · exact (h.withRest _ _ _ _ _ _).tell _
  · exact h.withRest _ _ _ _ _ _

theorem continueStream {r s : State} (h : r.Keeps s) (k : Nat) : r.Keeps (s.continueStream k) := by
  unfold State.continueStream
  split
  · exact h
  · split
    · exact h
    · split
      · exact ((h.withRest _ _ _ _ _ _).tell _).tell _
      · exact h.reach _ _

theorem straddle {r s : State} (h : r.Keeps s) (m : Nat) : r.Keeps (s.straddle m) := by
  refine h.withBilling _ rfl ?_
  rintro ⟨hb, hn, hfit⟩
  refine ⟨?_, hn, ?_⟩
  · intro c q hq
    simp only [State.circuit, Table.get_mapIdx, Option.map_eq_some_iff] at hq
    obtain ⟨x, hx, rfl⟩ := hq
    have := hb c x hx
    split <;> exact this
  · intro b hb' hst q hq
    simp only [State.circuit, Table.get_mapIdx, Option.map_eq_some_iff] at hq
    obtain ⟨x, hx, rfl⟩ := hq
    have := hfit b hb' hst x hx
    split <;> exact this

/-! ### Stages (07) -/

theorem postStage {r s : State} (h : r.Keeps s) (k n : Nat) : r.Keeps (s.postStage k n) := by
  unfold State.postStage
  split
  · exact h
  · exact h.post _ _

theorem elim_option {r s : State} (h : r.Keeps s) (o : Option Nat) (f : Nat → State)
    (hf : ∀ i, r.Keeps (f i)) : r.Keeps (o.elim s f) := by
  cases o
  · exact h
  · exact hf _

theorem enterStage {r s : State} (h : r.Keeps s) (k : Nat) (q : StageState) : r.Keeps (s.enterStage k q) := by
  unfold State.enterStage
  split
  · exact h
  · dsimp only
    have h' := h.changeStage k fun x => { x with state := q, lossEpisode := x.lossEpisode && q.isFed }
    split
    · exact h'
    · split
      · exact h'
      · refine postStage ?_ _ _
        split
        · exact h'.elim_option _ _ fun i => h'.becomeFeeding i
        · exact h'

theorem endChangeover {r s : State} (h : r.Keeps s) (k : Nat) (c : Changeover) (o : ChangeOutcome) (q : StageState) :
    r.Keeps (s.endChangeover k c o q) := by
  unfold State.endChangeover
  split
  · exact h
  · rename_i x _
    have h1 : r.Keeps (if c.step == .preparing then (x.setOf c.target).elim s s.cancelStartOrder else s) := by
      split
      · exact h.elim_option _ _ fun i => h.cancelStartOrder i
      · exact h
    have h2 := ((foldl (fun _ n h => h.recallOne n) c.serials h1).enterStage k q)
    dsimp only
    split
    · exact (h2.post _ _).tell _
    · exact h2.post _ _

theorem offerBoard {r s : State} (h : r.Keeps s) (k : Nat) (o : Order) : r.Keeps (s.offerBoard k o) :=
  (h.changeContext _ _).offer _ _ _

theorem tryClose {r s : State} (h : r.Keeps s) (k : Nat) : r.Keeps (s.tryClose k) := by
  unfold State.tryClose
  repeat' split
  all_goals first | exact h | exact h.offerBoard _ _

theorem enterClose {r s : State} (h : r.Keeps s) (k : Nat) (q : ChangeStep) : r.Keeps (s.enterClose k q) := by
  unfold State.enterClose
  dsimp only
  split
  · exact (h.takeStep _ _).tryClose k
  · exact (h.takeStep _ _).startStageTimer _ _ _

theorem deadFailed {r s : State} (h : r.Keeps s) (k : Nat) (c : Changeover) : r.Keeps (s.deadFailed k c) := by
  unfold State.deadFailed
  split
  · exact h.enterClose _ _
  · exact h.endChangeover _ _ _ _

theorem closeFails {r s : State} (h : r.Keeps s) (k : Nat) (c : Changeover) : r.Keeps (s.closeFails k c) := by
  unfold State.closeFails
  split
  · exact h.enterClose _ _
  · exact h.endChangeover _ _ _ _

theorem enterDead {r s : State} (h : r.Keeps s) (k : Nat) : r.Keeps (s.enterDead k) := by
  unfold State.enterDead
  have h' := (h.takeStep k .dead).postStage k ((s.stage k).elim 0 fun x => x.state.value)
  dsimp only
  split
  · split
    · exact h'.deadFailed _ _
    · exact h'.startStageTimer _ _ _
  · exact h'

theorem enterOpening {r s : State} (h : r.Keeps s) (k : Nat) : r.Keeps (s.enterOpening k) := by
  unfold State.enterOpening
  dsimp only
  split
  · exact (h.takeStep _ _).offerBoard _ _
  · exact h.takeStep _ _

theorem listStations {r : State} (k : Nat) (ms : List Nat) :
    ∀ {s : State}, r.Keeps s → r.Keeps (s.listStations k ms) := by
  induction ms with
  | nil => intro s h; exact h
  | cons m rest ih =>
    intro s h
    unfold State.listStations
    exact ih ((h.changeContext _ _).offer _ _ _)

theorem enterBoundary {r s : State} (h : r.Keeps s) (k : Nat) : r.Keeps (s.enterBoundary k) :=
  (listStations k _ ((h.takeStep _ _).changeContext _ _)).tell _

theorem boundaryCheck {r s : State} (h : r.Keeps s) (k : Nat) : r.Keeps (s.boundaryCheck k) := by
  unfold State.boundaryCheck
  repeat' split
  all_goals first | exact h | exact h.enterOpening k

theorem incomingOnline {r s : State} (h : r.Keeps s) (k : Nat) (c : Changeover) (i : Nat) :
    r.Keeps (s.incomingOnline k c i) := by
  unfold State.incomingOnline
  repeat' split
  · exact h.enterClose _ _
  · exact h.enterBoundary k
  · exact h.endChangeover _ _ _ _

theorem enterPreparing {r s : State} (h : r.Keeps s) (k : Nat) : r.Keeps (s.enterPreparing k) := by
  unfold State.enterPreparing
  have h' := h.startStageTimer k .prepare Config.prepareTenths
  dsimp only
  split
  · split
    · exact h'.startOrder _
    · exact h'.startOrder _
    · exact h'.incomingOnline _ _ _
    all_goals exact h'
  · exact h'

theorem beginChangeover {r s : State} (h : r.Keeps s) (k : Nat) (q : ChangeKind) (x : Option Input) (y : Input) :
    r.Keeps (s.beginChangeover k q x y) := (h.enterStage _ _).enterPreparing k

theorem considerTransfer {r s : State} (h : r.Keeps s) (k : Nat) (q : ChangeKind) :
    r.Keeps (s.considerTransfer k q) := by
  unfold State.considerTransfer
  split
  · exact h
  · split
    · split
      · exact h
      · split
        · exact h.beginChangeover _ _ _ _
        · exact h.post _ _
    all_goals exact h

theorem judgeSupply {r s : State} (h : r.Keeps s) (k : Nat) : r.Keeps (s.judgeSupply k) := by
  unfold State.judgeSupply
  split
  · exact h
  · split
    · split
      · split
        · exact h
        · exact considerTransfer (withTold (h.changeStage _ _) _) _ _
      · exact h.changeStage _ _
    all_goals exact h

theorem eachStage {r s : State} {f : State → Nat → State} (hf : ∀ s k, r.Keeps s → r.Keeps (f s k)) (h : r.Keeps s) :
    r.Keeps (s.eachStage f) := foldl hf _ h

theorem fuelLowRaised {r s : State} (h : r.Keeps s) (i : Nat) (l : List Nat) : r.Keeps (s.fuelLowRaised i l) := by
  refine eachStage (fun s k h => ?_) h
  split
  · exact h.considerTransfer _ _
  · exact h

theorem fuelLowCleared {r s : State} (h : r.Keeps s) (i : Nat) : r.Keeps (s.fuelLowCleared i) := by
  refine eachStage (fun s k h => ?_) h
  repeat' split
  all_goals first | exact h | exact h.endChangeover _ _ _ _

theorem withdrawClose {r s : State} (h : r.Keeps s) (k : Nat) (c : Changeover) : r.Keeps (s.withdrawClose k c) := by
  unfold State.withdrawClose
  split
  · exact (h.recallOne _).closeFails _ _
  · exact h.closeFails _ _
  · exact h.closeFails _ _

theorem incomingFailed {r s : State} (h : r.Keeps s) (k : Nat) (c : Changeover) : r.Keeps (s.incomingFailed k c) := by
  unfold State.incomingFailed
  repeat' split
  all_goals first
    | exact h
    | exact h.endChangeover _ _ _ _
    | exact h.deadFailed _ _
    | exact h.withdrawClose _ _

theorem incomingChanged {r s : State} (h : r.Keeps s) (k : Nat) (c : Changeover) (i : Nat) :
    r.Keeps (s.incomingChanged k c i) := by
  unfold State.incomingChanged
  repeat' split
  all_goals first | exact h | exact h.incomingFailed _ _ | exact h.incomingOnline _ _ _

theorem setChanged {r s : State} (h : r.Keeps s) (i : Nat) : r.Keeps (s.setChanged i) := by
  refine eachStage (fun s k h => ?_) h
  repeat' split
  all_goals first | exact h | exact h.incomingChanged _ _ _ | exact h.judgeSupply _

theorem boardLost {r s : State} (h : r.Keeps s) (k : Nat) : r.Keeps (s.boardLost k) := by
  unfold State.boardLost
  have h' := h.changeStage k fun x => { x with lost := true }
  dsimp only
  repeat' split
  all_goals first | exact h' | exact h'.endChangeover _ _ _ _

theorem boardRemoved {r s : State} (h : r.Keeps s) (k : Nat) : r.Keeps (s.boardRemoved k) :=
  (h.changeStage _ _).enterStage _ _

theorem openFails {r s : State} (h : r.Keeps s) (k : Nat) (c : Changeover) (b : Bool) : r.Keeps (s.openFails k c b) :=
  h.endChangeover _ _ _ _

theorem boardEnded {r s : State} (h : r.Keeps s) (k : Nat) (c : Changeover) (cmd : Command) (o : CommandOutcome) :
    r.Keeps (s.boardEnded k c cmd o) := by
  unfold State.boardEnded
  repeat' split
  all_goals first
    | exact h
    | exact (h.changeContext _ _).startStageTimer _ _ _
    | exact h.openFails _ _ _
    | exact h.closeFails _ _
    | exact h.endChangeover _ _ _ _

theorem boardOutcome {r s : State} (h : r.Keeps s) (cmd : Command) (o : CommandOutcome) : r.Keeps (s.boardOutcome cmd o) := by
  unfold State.boardOutcome
  repeat' split
  all_goals first | exact h | exact h.boardEnded _ _ _ _ | exact h.tryClose _

theorem countersOutcome {r s : State} (h : r.Keeps s) (cmd : Command) (o : CommandOutcome) :
    r.Keeps (s.countersOutcome cmd o) := by
  unfold State.countersOutcome
  split
  · exact h
  · split
    · exact (h.changeContext _ _).handOver _
    · exact ((h.straddle _).changeContext _ _).tell _
    · exact (h.changeContext _ _).tell _

theorem boundaryEnded {r s : State} (h : r.Keeps s) (q : BoundaryRequest) : r.Keeps (s.boundaryEnded q) := by
  unfold State.boundaryEnded
  split
  · exact h
  · exact (h.changeContext _ _).tell _

theorem closeSucceeds {r s : State} (h : r.Keeps s) (k : Nat) (c : Changeover) : r.Keeps (s.closeSucceeds k c) := by
  unfold State.closeSucceeds
  split
  all_goals first | exact h | exact h.endChangeover _ _ _ _

theorem openConfirmed {r s : State} (h : r.Keeps s) (k : Nat) (c : Changeover) : r.Keeps (s.openConfirmed k c) := by
  unfold State.openConfirmed
  split
  · exact (h.recallOne _).enterDead k
  · exact h.enterDead k
  · exact h.enterDead k

theorem judgeBoard {r s : State} (h : r.Keeps s) (k : Nat) (c : Changeover) (x : BoardReport) :
    r.Keeps (s.judgeBoard k c x) := by
  unfold State.judgeBoard
  split
  all_goals first
    | exact h
    | exact h.endChangeover _ _ _ _
    | exact h.openConfirmed _ _
    | exact h.tryClose _
    | exact h.closeSucceeds _ _

theorem applyBoardReport {r s : State} (h : r.Keeps s) (k : Nat) (x : BoardReport) : r.Keeps (s.applyBoardReport k x) := by
  unfold State.applyBoardReport
  have h' := h.changeStage k fun y => { y with report := some x, lost := false }
  dsimp only
  split
  · exact h'.judgeBoard _ _ _
  · exact (h'.enterStage _ _).judgeSupply k

theorem confirmExpired {r s : State} (h : r.Keeps s) (k : Nat) (c : Changeover) : r.Keeps (s.confirmExpired k c) := by
  unfold State.confirmExpired
  repeat' split
  all_goals first | exact h | exact h.openFails _ _ _ | exact h.endChangeover _ _ _ _ | exact h.closeFails _ _

/-! ### Periods (11) -/

theorem length_filter_le {l : List Nat} {i j : Nat} (h : i < j) :
    (l.filter fun x => decide (j ≤ x)).length ≤ (l.filter fun x => decide (i < x)).length := by
  rw [← List.countP_eq_length_filter, ← List.countP_eq_length_filter]
  exact List.countP_mono_left fun x _ hx => by simp at *; omega

theorem length_filter_lt_le (l : List Nat) (i : Nat) :
    (l.filter fun x => decide (i < x)).length ≤ (l.filter fun x => decide (i ≤ x)).length := by
  rw [← List.countP_eq_length_filter, ← List.countP_eq_length_filter]
  exact List.countP_mono_left fun x _ hx => by simp at *; omega

theorem length_filter_lt {l : List Nat} {i : Nat} (h : i ∈ l) :
    (l.filter fun x => decide (i < x)).length < (l.filter fun x => decide (i ≤ x)).length := by
  induction l with
  | nil => cases h
  | cons a l ih =>
    have hle := length_filter_lt_le l i
    by_cases ha : a = i
    · subst ha; simp; omega
    · have hm : i ∈ l := by simpa [Ne.symm ha] using h
      have := ih hm
      have hiff : i < a ↔ i ≤ a := by omega
      simp only [List.filter_cons, hiff]
      split <;> simp <;> omega

/-- R195, R196: the lines of a close, with the places still kept, stay within the hire queue. -/
theorem length_closeLines (s : State) (counted : List Nat) (old held : Nat) (is : List Nat) (hs : is.Pairwise (· < ·)) :
    ∀ t : CloseTally, s.period.hire.length = held →
      (∀ i ∈ is, held + t.lines.length + (counted.filter fun j => decide (i ≤ j)).length ≤ Config.hireCap) →
      held + t.lines.length ≤ Config.hireCap →
      held + (is.foldl (closeSet s counted old) t).lines.length ≤ Config.hireCap := by
  induction is with
  | nil => intro t _ _ h; exact h
  | cons i rest ih =>
    intro t hheld hroom h
    rw [List.foldl_cons]
    have hi := hroom i (by simp)
    have hstep : held + (closeSet s counted old t i).lines.length +
        (counted.filter fun j => decide (i < j)).length ≤ Config.hireCap := by
      have hle := length_filter_lt_le counted i
      unfold closeSet
      split
      · omega
      · split
        · rename_i hp
          simp only [placeFor, Bool.or_eq_true, decide_eq_true_eq, List.contains_iff_mem] at hp
          rw [hheld] at hp
          simp only [List.length_append, List.length_singleton]
          rcases hp with hm | hlt
          · have : (counted.filter fun j => decide (i < j)).length < (counted.filter fun j => decide (i ≤ j)).length :=
              length_filter_lt hm
            omega
          · omega
        · dsimp only; omega
    refine ih (List.pairwise_cons.1 hs).2 _ hheld ?_ ?_
    · intro j hj
      have hij := (List.pairwise_cons.1 hs).1 j hj
      have hle := length_filter_le (l := counted) hij
      omega
    · omega

theorem withPeriod {r s : State} (h : r.Keeps s) (p : Period) (hp : s.period.placesKept → p.placesKept) :
    r.Keeps { s with period := p } := h.trans { refl s with period := hp }

theorem withSetsPeriod {r s : State} (h : r.Keeps s) (x : Table 12 (Option SetRecord)) (p : Period)
    (hp : s.period.placesKept → p.placesKept) : r.Keeps { s with sets := x, period := p } :=
  h.trans { refl s with period := hp }

theorem finalStep {r s : State} (h : r.Keeps s) : r.Keeps s.finalStep := by
  unfold State.finalStep
  split
  · exact h
  · rename_i c hc
    dsimp only
    refine post (h.withSetsPeriod _ _ ?_) _ _
    intro hk
    simp only [Period.placesKept, hc, Option.elim_some] at hk
    simp only [Period.placesKept, Option.elim_none, List.length_append, Nat.add_zero]
    have hs : s.leasedSets.Pairwise (· < ·) := (List.pairwise_lt_range (n := 12)).filter _
    refine length_closeLines s c.counted _ _ _ hs ⟨[], 0⟩ rfl ?_ ?_
    · intro i _
      have := List.length_filter_le (fun j => decide (i ≤ j)) c.counted
      simp; omega
    · simp; omega

theorem startClosing {r s : State} (h : r.Keeps s) : r.Keeps s.startClosing := by
  refine startSweep (h.withPeriod _ ?_) _
  intro hk
  unfold Period.placesKept at *
  cases hc : s.period.close <;> simp_all

theorem endSweep {r s : State} (h : r.Keeps s) (k : SweepKind) : r.Keeps (s.endSweep k) := by
  have h' : r.Keeps { s with billing := { s.billing with sweep := none } } := h.withRest _ _ _ _ _ _
  unfold State.endSweep
  split
  · exact h'.finalStep
  · dsimp only
    split
    · exact h'.startClosing
    · exact h'

theorem continueSource {r s : State} (h : r.Keeps s) (src : Source) : r.Keeps (s.continueSource src) := by
  unfold State.continueSource
  repeat' split
  all_goals first | exact h | exact h.continueStream _ | exact h.endSweep _ | exact h.reach _ _

theorem callClosing {r s : State} (h : r.Keeps s) : r.Keeps s.callClosing := by
  unfold State.callClosing
  split
  · exact h.startClosing
  · exact h.withRest _ _ _ _ _ _

/-! ### The end of a step -/

theorem commandEnded {r s : State} (h : r.Keeps s) (c : Command) (o : CommandOutcome) : r.Keeps (s.commandEnded c o) := by
  unfold State.commandEnded
  split
  all_goals first
    | exact h.engineOutcome _ _
    | exact h.pumpOutcome _ _
    | exact h.boardOutcome _ _
    | exact h.countersOutcome _ _

theorem heed {r s : State} (h : r.Keeps s) (m : Told) : r.Keeps (s.heed m) := by
  cases m with
  | setChanged i => exact h.setChanged i
  | fuelLowRaised i l => exact h.fuelLowRaised i l
  | fuelLowCleared i => exact h.fuelLowCleared i
  | outcome c o => exact h.commandEnded c o
  | judgeSupply k => exact h.judgeSupply k
  | boundaryCheck k => exact h.boundaryCheck k
  | boundaryEnded q => exact h.boundaryEnded q
  | bill src => exact h.continueSource src

theorem settle {r : State} (n : Nat) : ∀ {s : State}, r.Keeps s → r.Keeps (State.settle n s) := by
  induction n with
  | zero => intro s h; exact h
  | succ n ih =>
    intro s h
    unfold State.settle
    split
    · exact h
    · exact ih ((h.withTold _).heed _)

theorem beginChosen_eq (l : Line) :
    l.beginChosen.stations = l.stations ∧ (l.bounded → l.beginChosen.bounded) := by
  unfold Line.beginChosen
  split
  · split
    · unfold Line.begin
      dsimp only
      split
      · exact ⟨rfl, id⟩
      · refine ⟨rfl, ?_⟩
        unfold Line.bounded
        simp only [List.length_map, List.filter_map]
        intro hb
        refine ⟨hb.1, ?_⟩
        refine le_trans (le_of_eq ?_) hb.2
        congr 1
        refine List.filter_congr fun c _ => ?_
        simp only [Function.comp]
        split <;> rfl
    · exact ⟨rfl, id⟩
  · exact ⟨rfl, id⟩

theorem movePointer_eq (l : Line) (e round : Nat) :
    (l.movePointer e round).stations = l.stations ∧ (l.movePointer e round).queue = l.queue := by
  unfold Line.movePointer
  split <;> exact ⟨rfl, rfl⟩

theorem choose_eq (l : Line) : l.choose.stations = l.stations ∧ l.choose.queue = l.queue := by
  have hc : ∀ m, l.chooseCommand = some m → m.stations = l.stations ∧ m.queue = l.queue := by
    intro m hm
    unfold Line.chooseCommand at hm
    split at hm
    · simp only [Option.map_eq_some_iff] at hm
      obtain ⟨_, _, rfl⟩ := hm
      exact ⟨rfl, rfl⟩
    · cases hm
  have hp : ∀ m, l.choosePoll = some m → m.stations = l.stations ∧ m.queue = l.queue := by
    intro m hm
    unfold Line.choosePoll at hm
    split at hm
    · simp only [Option.map_eq_some_iff] at hm
      obtain ⟨_, _, rfl⟩ := hm
      exact movePointer_eq _ _ _
    · cases hm
  unfold Line.choose
  have ho : ∀ m, (if l.sincePoll < Config.pollEvery then l.chooseCommand.or l.choosePoll
      else l.choosePoll.or l.chooseCommand) = some m → m.stations = l.stations ∧ m.queue = l.queue := by
    intro m hm
    split at hm <;> rcases Option.or_eq_some_iff.1 hm with h | ⟨_, h⟩
    all_goals first | exact hc _ h | exact hp _ h
  cases h : (if l.sincePoll < Config.pollEvery then l.chooseCommand.or l.choosePoll
      else l.choosePoll.or l.chooseCommand) with
  | none => exact ⟨rfl, rfl⟩
  | some m => exact ho m h

theorem arbitrate {r s : State} (h : r.Keeps s) : r.Keeps s.arbitrate := by
  unfold State.arbitrate
  split
  · refine h.withLine _ ?_ ?_
    · rw [(beginChosen_eq _).1, (choose_eq _).1]
    · intro hb
      refine (beginChosen_eq _).2 ?_
      unfold Line.bounded at *
      rw [(choose_eq _).2]
      exact hb
  · exact h.withLine _ (beginChosen_eq _).1 (beginChosen_eq _).2

/-- The end of a step keeps what the work of the blocks keeps. -/
theorem finish {r s : State} (h : r.Keeps s) : r.Keeps s.finish := (settle _ h).arbitrate

end State.Keeps
end Sys2Proof.Machine
end

