-- ==== Sys2Proof/Laws/Memory.lean ====
section
/-! SUPPORT. The memory operations keep the canonical form, and a read after a write gives what was written. -/

namespace Sys2Proof.Machine

theorem Memory.wf_nil : Memory.wf [] = true := rfl

theorem Memory.wf_cons (c : Host.Cell) (m : Memory) :
    Memory.wf (c :: m) = true ↔ (∀ d ∈ m, c.1 < d.1) ∧ c.2 ≠ 0#8 ∧ Memory.wf m = true := by
  simp only [Memory.wf, List.pairwise_cons, List.all_cons, Bool.and_eq_true, decide_eq_true_eq, bne_iff_ne, ne_eq]
  tauto

/-- Every address of a memory after a write is one it had or the one written. -/
theorem Memory.mem_write {m : Memory} {a : Nat} {b : Byte} {d : Host.Cell} (h : d ∈ m.write a b) : d ∈ m ∨ d.1 = a := by
  induction m with
  | nil =>
    simp only [Memory.write] at h
    split at h <;> simp_all
  | cons c rest ih =>
    simp only [Memory.write] at h
    split at h
    · split at h
      · exact .inl h
      · rcases List.mem_cons.mp h with rfl | h
        · exact .inr rfl
        · exact .inl h
    · split at h
      · split at h
        · exact .inl (List.mem_cons_of_mem _ h)
        · rcases List.mem_cons.mp h with rfl | h
          · exact .inr rfl
          · exact .inl (List.mem_cons_of_mem _ h)
      · rcases List.mem_cons.mp h with rfl | h
        · exact .inl List.mem_cons_self
        · rcases ih h with h | h
          · exact .inl (List.mem_cons_of_mem _ h)
          · exact .inr h

/-- A write keeps the canonical form. -/
theorem Memory.wf_write {m : Memory} (a : Nat) (b : Byte) (h : m.wf = true) : Memory.wf (m.write a b) = true := by
  induction m with
  | nil =>
    simp only [Memory.write]
    split
    · rfl
    · simp_all [Memory.wf]
  | cons c rest ih =>
    obtain ⟨hlt, hne, hrest⟩ := (Memory.wf_cons c rest).mp h
    simp only [Memory.write]
    split
    · next hac =>
      split
      · exact h
      · next hb =>
        refine (Memory.wf_cons _ _).mpr ⟨?_, by simpa using hb, h⟩
        intro d hd
        rcases List.mem_cons.mp hd with rfl | hd
        · exact hac
        · exact Nat.lt_trans hac (hlt d hd)
    · split
      · next heq =>
        split
        · exact hrest
        · next hb =>
          have : a = c.1 := by simpa using heq
          exact (Memory.wf_cons _ _).mpr ⟨fun d hd => this ▸ hlt d hd, by simpa using hb, hrest⟩
      · next hac heq =>
        refine (Memory.wf_cons _ _).mpr ⟨?_, hne, ih hrest⟩
        intro d hd
        rcases Memory.mem_write hd with hd | rfl
        · exact hlt d hd
        · have : d.1 ≠ c.1 := by simpa using heq
          omega

/-- Writes keep the canonical form. -/
theorem Memory.wf_writeBytes {m : Memory} (a : Nat) (bs : List Byte) (h : m.wf = true) :
    Memory.wf (m.writeBytes a bs) = true := by
  induction bs generalizing m a with
  | nil => exact h
  | cons b rest ih => exact ih _ (Memory.wf_write a b h)

theorem Memory.read_eq_zero_of_lt {m : Memory} {a : Nat} (h : ∀ d ∈ m, a < d.1) : m.read a = 0#8 := by
  induction m with
  | nil => rfl
  | cons c rest ih =>
    have hc := h c List.mem_cons_self
    simp only [Memory.read, beq_iff_eq]
    rw [if_neg (by omega)]
    exact ih fun d hd => h d (List.mem_cons_of_mem _ hd)

/-- A read after a write in a canonical memory. -/
theorem Memory.read_write {m : Memory} (h : m.wf = true) (a : Nat) (b : Byte) (x : Nat) :
    (m.write a b).read x = if x = a then b else m.read x := by
  induction m with
  | nil =>
    simp only [Memory.write]
    split
    · next hb =>
      have hb : b = 0#8 := by simpa using hb
      simp [Memory.read, hb]
    · by_cases hx : x = a
      · simp [Memory.read, hx]
      · simp only [Memory.read, beq_iff_eq, if_neg hx]
        rw [if_neg (fun h => hx h.symm)]
  | cons c rest ih =>
    obtain ⟨hlt, hne, hrest⟩ := (Memory.wf_cons c rest).mp h
    have hzero : ∀ y, y ≤ c.1 → Memory.read rest y = 0#8 := fun y hy =>
      Memory.read_eq_zero_of_lt fun d hd => Nat.lt_of_le_of_lt hy (hlt d hd)
    simp only [Memory.write]
    split
    · next hac =>
      split
      · next hb =>
        have hb : b = 0#8 := by simpa using hb
        by_cases hx : x = a
        · subst hx
          simp only [Memory.read, beq_iff_eq]
          rw [if_neg (by omega), hzero _ (Nat.le_of_lt hac), hb, if_pos trivial]
        · rw [if_neg hx]
      · by_cases hx : x = a
        · simp [Memory.read, hx]
        · simp only [Memory.read, beq_iff_eq]
          rw [if_neg hx, if_neg (fun h => hx h.symm)]
    · split
      · next heq =>
        have heq : a = c.1 := by simpa using heq
        split
        · next hb =>
          have hb : b = 0#8 := by simpa using hb
          by_cases hx : x = a
          · rw [if_pos hx, hx, heq, hzero _ (Nat.le_refl _), hb]
          · simp only [Memory.read, beq_iff_eq]
            rw [if_neg hx, if_neg (by omega)]
        · by_cases hx : x = a
          · simp [Memory.read, hx]
          · simp only [Memory.read, beq_iff_eq]
            rw [if_neg hx, if_neg (fun h => hx h.symm), if_neg (by omega)]
      · next hac heq =>
        have heq : a ≠ c.1 := by simpa using heq
        simp only [Memory.read, beq_iff_eq]
        by_cases hcx : c.1 = x
        · rw [if_pos hcx, if_neg (by omega), if_pos hcx]
        · rw [if_neg hcx, ih hrest, if_neg hcx]

/-- Bytes written are read back, and other bytes are as they were. -/
theorem Memory.read_writeBytes {m : Memory} (h : m.wf = true) (a : Nat) (bs : List Byte) (x : Nat) :
    (m.writeBytes a bs).read x = if a ≤ x ∧ x < a + bs.length then bs.getD (x - a) 0#8 else m.read x := by
  induction bs generalizing m a with
  | nil => simp [Memory.writeBytes, show ¬(a ≤ x ∧ x < a) by omega]
  | cons b rest ih =>
    simp only [Memory.writeBytes]
    rw [ih (Memory.wf_write a b h), Memory.read_write h]
    by_cases hx : x = a
    · subst hx
      simp
    · by_cases hin : a + 1 ≤ x ∧ x < a + 1 + rest.length
      · rw [if_pos hin, if_pos (by simp only [List.length_cons]; omega)]
        obtain ⟨k, rfl⟩ : ∃ k, x = a + 1 + k := ⟨x - (a + 1), by omega⟩
        simp [show a + 1 + k - (a + 1) = k by omega, show a + 1 + k - a = k + 1 by omega]
      · rw [if_neg hin, if_neg hx, if_neg (by simp only [List.length_cons]; omega)]

theorem Memory.length_readBytes (m : Memory) (a n : Nat) : (m.readBytes a n).length = n := by
  induction n generalizing a with
  | zero => rfl
  | succ n ih => simp [Memory.readBytes, ih]

theorem Memory.getElem?_readBytes (m : Memory) (a n k : Nat) :
    (m.readBytes a n)[k]? = if k < n then some (m.read (a + k)) else none := by
  induction n generalizing a k with
  | zero => simp [Memory.readBytes]
  | succ n ih =>
    cases k with
    | zero => simp [Memory.readBytes]
    | succ k =>
      simp only [Memory.readBytes, List.getElem?_cons_succ, ih, Nat.add_lt_add_iff_right]
      rw [show a + 1 + k = a + (k + 1) by omega]

/-- Bytes written are read back whole. -/
theorem Memory.readBytes_writeBytes {m : Memory} (h : m.wf = true) (a : Nat) (bs : List Byte) :
    Memory.readBytes (m.writeBytes a bs) a bs.length = bs := by
  apply List.ext_getElem?
  intro k
  rw [Memory.getElem?_readBytes, Memory.read_writeBytes h]
  split
  · next hk =>
    rw [if_pos (by omega), Nat.add_sub_cancel_left]
    simp [List.getElem?_eq_getElem hk, List.getD]
  · next hk => simp [List.getElem?_eq_none (Nat.not_lt.mp hk)]

/-- The memories of the machine right after reset are canonical. -/
theorem State.reset_memories_wf : State.reset.planMem.wf = true ∧ State.reset.tallyMem.wf = true := ⟨rfl, rfl⟩

/-- Writing one byte leaves every other as it was, whatever the form of the memory. -/
theorem Memory.read_write_of_ne (m : Memory) (a : Nat) (b : Byte) (x : Nat) (h : x ≠ a) : (m.write a b).read x = m.read x := by
  induction m with
  | nil => rw [Memory.write]; split <;> simp [Memory.read, Ne.symm h]
  | cons c rest ih =>
    rw [Memory.write]
    split
    · split
      · rfl
      · simp [Memory.read, Ne.symm h]
    · split
      · next heq =>
        have hc : c.1 ≠ x := fun g => h (g.symm.trans (by simpa using heq : a = c.1).symm)
        split
        · simp [Memory.read, hc]
        · simp [Memory.read, hc, Ne.symm h]
      · simp only [Memory.read, ih]

/-- Writing bytes leaves every other byte as it was, whatever the form of the memory. -/
theorem Memory.read_writeBytes_outside (bs : List Byte) (m : Memory) (a x : Nat) (h : x < a ∨ a + bs.length ≤ x) :
    (m.writeBytes a bs).read x = m.read x := by
  induction bs generalizing m a with
  | nil => rfl
  | cons b rest ih =>
    rw [List.length_cons] at h
    rw [Memory.writeBytes, ih _ _ (by omega), Memory.read_write_of_ne _ _ _ _ (by omega)]

/-- R177: a record is 54 bytes. -/
theorem AccountRecord.length_bytes (r : AccountRecord) : r.bytes.length = 54 := by
  simp [AccountRecord.bytes, AccountRecord.words, storedWord]

/-- R177: what a record written does to tally memory. -/
theorem State.writeRecord_tallyMem (s : State) (a : Nat) (r : AccountRecord) :
    (s.writeRecord a r).tallyMem =
      if s.bankAnswers a then Memory.writeBytes s.tallyMem (recordAddress a) r.bytes else s.tallyMem := by
  rw [State.writeRecord]
  by_cases h : s.bankAnswers a = true
  · rw [if_pos h, if_pos h]
  · rw [if_neg h, if_neg h]

/-- R177: a record written leaves every byte of the others as it was. -/
theorem State.read_writeRecord_outside (s : State) (a : Nat) (r : AccountRecord) (x : Nat)
    (h : x < a * 54 ∨ a * 54 + 54 ≤ x) : (s.writeRecord a r).tallyMem.read x = s.tallyMem.read x := by
  have ha : recordAddress a = a * 54 := rfl
  rw [State.writeRecord_tallyMem]
  by_cases hb : s.bankAnswers a = true
  · rw [if_pos hb]
    exact Memory.read_writeBytes_outside _ _ _ _ (by rw [AccountRecord.length_bytes, ha]; exact h)
  · rw [if_neg hb]

/-- A record written keeps the canonical form of tally memory. -/
theorem State.wf_writeRecord (s : State) (a : Nat) (r : AccountRecord) (h : s.tallyMem.wf = true) :
    (s.writeRecord a r).tallyMem.wf = true := by
  unfold State.writeRecord
  split
  · dsimp only
    exact Memory.wf_writeBytes _ _ h
  · exact h

/-- An image written keeps the canonical form of plan memory. -/
theorem State.wf_writePlanBytes (s : State) (bs : List Byte) (h : s.planMem.wf = true) :
    (s.writePlanBytes bs).planMem.wf = true := by
  unfold State.writePlanBytes
  split
  · exact Memory.wf_writeBytes _ _ h
  · exact h

/-- A write cut short keeps the canonical form of both memories. -/
theorem State.wf_tear (s : State) (t : Option TornWrite) (hp : s.planMem.wf = true) (ht : s.tallyMem.wf = true) :
    (s.tear t).planMem.wf = true ∧ (s.tear t).tallyMem.wf = true := by
  cases t with
  | none => exact ⟨hp, ht⟩
  | some t =>
    simp only [State.tear]
    split
    · exact ⟨hp, ht⟩
    · split
      · exact ⟨hp, Memory.wf_writeBytes _ _ ht⟩
      · exact ⟨Memory.wf_writeBytes _ _ hp, ht⟩

end Sys2Proof.Machine
end

