-- ==== Sys2Proof/Laws/Queue.lean ====
section
/-! SUPPORT. What examining the waiting list, withdrawing and ending commands do to the machine, once each. -/

namespace Sys2Proof.Machine

/-! ## The waiting list is examined -/

/-- The fate of a member depends on the stations and the queue alone. -/
theorem fateOf_congr {l m : Line} (hs : l.stations = m.stations) (hq : l.queue = m.queue) (c : Command) :
    fateOf l c = fateOf m c := by
  cases l; cases m; cases hs; cases hq; rfl

theorem enteredOf_cons (c : Command) (f : Fate) (l : List (Command × Fate)) :
    enteredOf ((c, f) :: l) = enteredOf [(c, f)] ++ enteredOf l := by
  rw [enteredOf, enteredOf, enteredOf, ← List.map_append, ← List.filter_append]; rfl

theorem waitingOf_cons (c : Command) (f : Fate) (l : List (Command × Fate)) :
    waitingOf ((c, f) :: l) = waitingOf [(c, f)] ++ waitingOf l := by
  rw [waitingOf, waitingOf, waitingOf, ← List.map_append, ← List.filter_append]; rfl

theorem endedOf_cons (c : Command) (f : Fate) (l : List (Command × Fate)) :
    endedOf ((c, f) :: l) = endedOf [(c, f)] ++ endedOf l := by
  rw [endedOf, endedOf, endedOf, ← List.filterMap_append]; rfl

/-- One member examined: it meets its fate, and nothing else changes. -/
theorem State.admitAll_cons (c : Command) (rest : List Command) (s : State) :
    State.admitAll (c :: rest) s =
      State.admitAll rest
        { s with
          line := { s.line with
            queue := s.line.queue ++ enteredOf [(c, fateOf s.line c)]
            waiting := s.line.waiting ++ waitingOf [(c, fateOf s.line c)] }
          told := s.told ++ endedOf [(c, fateOf s.line c)] } := by
  by_cases hr : s.line.hasRoom c.rank = true
  · refine (if_pos hr : (if s.line.hasRoom c.rank = true then _ else _) = _).trans ?_
    congr 1
    by_cases hm : c.removed = true
    · simp [State.place, fateOf, hm, hr, State.tell, enteredOf, waitingOf, endedOf]
    cases h : s.line.station c.order.cls c.object with
    | none => simp [State.place, fateOf, h, hm, hr, State.tell, enteredOf, waitingOf, endedOf]
    | some st =>
      by_cases hl : st.state = .lost
      · simp [State.place, fateOf, h, hm, hr, hl, State.tell, enteredOf, waitingOf, endedOf]
      · simp [State.place, fateOf, h, hm, hr, hl, enteredOf, waitingOf, endedOf]
  · refine (if_neg hr : (if s.line.hasRoom c.rank = true then _ else _) = _).trans ?_
    congr 1
    simp [fateOf, hr, enteredOf, waitingOf, endedOf]

/-- R57, R59: members examined in their order, each in the queue that those before it left. -/
theorem State.admitAll_admits (cs : List Command) : ∀ s : State, ∃ fates : List (Command × Fate),
    fates.map (fun x => x.1) = cs ∧
      (∀ before c fate after, fates = before ++ (c, fate) :: after →
        fate = fateOf { s.line with queue := s.line.queue ++ enteredOf before } c) ∧
      State.admitAll cs s = { s with
        line := { s.line with queue := s.line.queue ++ enteredOf fates, waiting := s.line.waiting ++ waitingOf fates }
        told := s.told ++ endedOf fates } := by
  induction cs with
  | nil => intro s; exact ⟨[], rfl, by simp, by simp [State.admitAll, enteredOf, waitingOf, endedOf]⟩
  | cons c rest ih =>
    intro s
    rw [State.admitAll_cons]
    obtain ⟨fates, hm, hf, he⟩ := ih { s with
      line := { s.line with
        queue := s.line.queue ++ enteredOf [(c, fateOf s.line c)]
        waiting := s.line.waiting ++ waitingOf [(c, fateOf s.line c)] }
      told := s.told ++ endedOf [(c, fateOf s.line c)] }
    refine ⟨(c, fateOf s.line c) :: fates, by simp [hm], ?_, ?_⟩
    · intro before d fate after h
      cases before with
      | nil =>
        obtain ⟨⟨rfl, rfl⟩, _⟩ : (c = d ∧ fateOf s.line c = fate) ∧ fates = after := by simpa using h
        apply fateOf_congr
        · rfl
        · exact (List.append_nil _).symm
      | cons b before =>
        rw [hf before d fate after (List.cons.inj h).2, ← (List.cons.inj h).1]
        apply fateOf_congr
        · rfl
        · exact (List.append_assoc ..).trans (congrArg _ (enteredOf_cons c _ before).symm)
    · rw [he, enteredOf_cons c _ fates, waitingOf_cons c _ fates, endedOf_cons c _ fates]
      simp only [List.append_assoc]

/-- R57, R59: an entry has left the queue: each waiting member meets its fate. -/
theorem State.admitWaiting_admits (s : State) : AdmitsWaiting s s.admitWaiting := by
  obtain ⟨fates, hm, hf, he⟩ := State.admitAll_admits s.line.waiting { s with line := { s.line with waiting := [] } }
  refine ⟨fates, hm, fun before c fate after h => ?_, ?_⟩
  · rw [hf before c fate after h]
    exact fateOf_congr rfl rfl c
  · rw [State.admitWaiting, he]; simp

/-- Examining the waiting list changes the line and adds to what is told; nothing else. -/
theorem AdmitsWaiting.frame {s t : State} (h : AdmitsWaiting s t) :
    ∃ (l : Line) (m : List Told), t = { s with line := l, told := m } ∧ l.stations = s.line.stations ∧
      l.nextSerial = s.line.nextSerial ∧ l.current = s.line.current := by
  obtain ⟨fates, _, _, h⟩ := h
  exact ⟨_, _, h, rfl, rfl, rfl⟩

/-! ## Commands that leave -/

/-- A transaction chosen and not begun may go; the line is otherwise as it was. -/
theorem Line.dropChosen_eq (l : Line) (n : Nat) : l.dropChosen n = { l with current := (l.dropChosen n).current } := by
  unfold Line.dropChosen; repeat' split
  all_goals rfl

/-- R57, R58: recalling a command changes the line and adds to what is told; nothing else. -/
theorem State.recall_frame (s : State) (n : Nat) :
    ∃ (l : Line) (m : List Told), s.recall n = { s with line := l, told := m } ∧ l.stations = s.line.stations ∧
      l.nextSerial = s.line.nextSerial := by
  unfold State.recall
  split
  · exact ⟨_, _, rfl, rfl, rfl⟩
  · split
    · obtain ⟨l, m, h, hs, hn, _⟩ := (State.admitWaiting_admits { s with
        line := { s.line with queue := s.line.queue.filter fun c => c.serial != n }.dropChosen n }).frame
      refine ⟨l, m, h, hs.trans ?_, hn.trans ?_⟩ <;> rw [Line.dropChosen_eq]
    · exact ⟨s.line, s.told, rfl, rfl, rfl⟩

/-- Telling outcomes one by one is telling them all. -/
theorem State.tellOutcomes (cs : List Command) (o : CommandOutcome) : ∀ s : State,
    cs.foldl (fun s c => s.tell (.outcome c o)) s = { s with told := s.told ++ cs.map fun c => .outcome c o } := by
  induction cs with
  | nil => intro s; simp
  | cons c rest ih => intro s; rw [List.foldl_cons, ih]; simp [State.tell]

/-- R109: waiting commands that pass leave the list and their outcomes are told; nothing else changes. -/
theorem State.endWaiting_eq (s : State) (p : Command → Bool) (o : CommandOutcome) :
    s.endWaiting p o =
      { s with
        line := { s.line with waiting := s.line.waiting.filter fun c => !p c }
        told := s.told ++ (s.line.waiting.filter p).map fun c => .outcome c o } := by
  rw [State.endWaiting, State.tellOutcomes]

/-- R59: where no queued command passes, none ends. -/
theorem State.endCommands_none (s : State) (p : Command → Bool) (o : CommandOutcome) (h : ∀ c ∈ s.line.queue, p c = false) :
    s.endCommands p o = s := by
  rw [State.endCommands, if_neg (by simpa using h)]

end Sys2Proof.Machine
end

