-- ==== Sys2Proof/Laws/Records.lean ====
section
/-! SUPPORT. What is found: the map entry of a circuit, and the record that six words read from tally memory spell. -/

namespace Sys2Proof.Machine

/-! ## The map entry of a circuit -/

/-- R148: the entry hit is the first used one that names the circuit. -/
theorem BillingEngine.entryOf_eq_some (b : BillingEngine) (c n : Nat) :
    b.entryOf c = some n ↔
      (∃ e, b.map.get n = some (some e) ∧ e.circuit = c) ∧
        ∀ j < n, ∀ e, b.map.get j = some (some e) → e.circuit ≠ c := by
  rw [BillingEngine.entryOf, Table.find_eq_some]
  constructor
  · rintro ⟨⟨x, hx, hp⟩, h⟩
    cases x with
    | none => simp at hp
    | some e => exact ⟨⟨e, hx, by simpa using hp⟩, fun j hj e he => by simpa using h j hj _ he⟩
  · rintro ⟨⟨e, hx, hp⟩, h⟩
    refine ⟨⟨some e, hx, by simpa using hp⟩, fun j hj x hx => ?_⟩
    cases x with
    | none => rfl
    | some e => simpa using h j hj e hx

/-- R148: a miss: no used entry names the circuit. -/
theorem BillingEngine.entryOf_eq_none (b : BillingEngine) (c : Nat) :
    b.entryOf c = none ↔ ∀ j e, b.map.get j = some (some e) → e.circuit ≠ c := by
  rw [BillingEngine.entryOf, Table.find_eq_none]
  refine ⟨fun h j e he => by simpa using h j _ he, fun h j x hx => ?_⟩
  cases x with
  | none => rfl
  | some e => simpa using h j e hx

/-! ## Records as read -/

/-- A word is its two halves. -/
theorem append_halves (w : BitVec 64) : w.extractLsb' 32 32 ++ w.extractLsb' 0 32 = w := by
  rw [BitVec.extractLsb'_append_extractLsb'_eq_extractLsb' (by rfl)]
  exact BitVec.extractLsb'_eq_self

/-- 10, section 10.2: the words of the record that six words spell are those words. -/
theorem AccountRecord.words_recordOf (w0 w1 w2 w3 w4 w5 : BitVec 64) :
    (recordOf w0 w1 w2 w3 w4 w5).words = [w0, w1, w2, w3, w4, w5] := by
  have h : w5.extractLsb' 24 40 ++ w5.extractLsb' 16 8 ++ w5.extractLsb' 14 2 ++ w5.extractLsb' 0 14 = w5 := by
    iterate 3 rw [BitVec.extractLsb'_append_extractLsb'_eq_extractLsb' (by rfl)]
    exact BitVec.extractLsb'_eq_self
  simp only [AccountRecord.words, recordOf, append_halves, h]

/-- R179: a read with an uncorrectable word ends at the lowest of them, whatever the other words showed. -/
theorem judgeWords_uncorrectable {ws : List WordRead} {k : Nat} (hk : ws[k]? = some .uncorrectable)
    (h : ∀ j < k, ws[j]? ≠ some .uncorrectable) : judgeWords ws = .uncorrectable k := by
  have hf : (ws.findIdx? fun w => w == .uncorrectable) = some k := by
    rw [List.findIdx?_eq_some_iff_getElem]
    obtain ⟨hlt, hw⟩ := List.getElem?_eq_some_iff.mp hk
    refine ⟨hlt, by simp [hw], fun j hj => ?_⟩
    simpa [List.getElem?_eq_getElem (Nat.lt_trans hj hlt)] using h j hj
  rw [judgeWords, hf]

/-- R179: a read of six words none of which is uncorrectable gives the record their data spell. -/
theorem judgeWords_readable {w0 w1 w2 w3 w4 w5 : WordRead}
    (h : ∀ w ∈ [w0, w1, w2, w3, w4, w5], w ≠ .uncorrectable) :
    judgeWords [w0, w1, w2, w3, w4, w5] =
      let r := recordOf w0.data w1.data w2.data w3.data w4.data w5.data
      match [w0, w1, w2, w3, w4, w5].findIdx? WordRead.wasCorrected with
      | some k => .corrected r ([w0, w1, w2, w3, w4, w5].countP WordRead.wasCorrected) k
      | none => .good r := by
  have hf : ([w0, w1, w2, w3, w4, w5].findIdx? fun w => w == .uncorrectable) = none := by
    rw [List.findIdx?_eq_none_iff]
    exact fun w hw => by simpa using h w hw
  rw [judgeWords, hf]
  rfl

end Sys2Proof.Machine
end

