-- ==== Sys2Proof/Laws/Sound.lean ====
section
/-! SUPPORT. What the named operations of the blocks do to the laws of the device: `State.Sound r s` says that what held of
`r` among them holds of `s`, one lemma per operation. -/

namespace Sys2Proof.Machine

/-- The laws of the device that hold of `r` hold of `s`. -/
structure State.Sound (r s : State) : Prop where
  ports : ∀ p, (r.port p).bounded → (s.port p).bounded
  queue : r.line.bounded → s.line.bounded
  mem : r.memoriesCanonical → s.memoriesCanonical
  clock : r.clock.inRange → s.clock.inRange
  books : r.booksBalance → s.booksBalance
  map : r.billing.mapSingle → s.billing.mapSingle
  acc : r.deliveries.accounted → s.deliveries.accounted
  tally : r.tally.sound → s.tally.sound
  period : r.period.placesKept → s.period.placesKept

namespace State.Sound

theorem refl (s : State) : s.Sound s := ⟨fun _ => id, id, id, id, id, id, id, id, id⟩

theorem trans {r s t : State} (h : r.Sound s) (g : s.Sound t) : r.Sound t where
  ports p x := g.ports p (h.ports p x)
  queue x := g.queue (h.queue x)
  mem x := g.mem (h.mem x)
  clock x := g.clock (h.clock x)
  books x := g.books (h.books x)
  map x := g.map (h.map x)
  acc x := g.acc (h.acc x)
  tally x := g.tally (h.tally x)
  period x := g.period (h.period x)

theorem countP_eq {n : Nat} {α : Type} {t u : Table n α} (f : α → Bool)
    (h : ∀ c, (t.get c).map f = (u.get c).map f) : t.cells.countP f = u.cells.countP f := by
  have hl : t.cells.map f = u.cells.map f := by
    apply List.ext_getElem?
    intro i
    have := h i
    simpa [Table.get] using this
  have := congrArg (List.countP id) hl
  simpa [List.countP_map, Function.comp_def] using this

theorem of_keeps {r s : State} (h : r.Keeps s) : r.Sound s where
  ports p x := by
    cases p
    · exact ⟨by have := congrArg PortState.buffer h.yard; simp only at this; show s.yard.buffer.length ≤ _; rw [this]; exact x.1, h.yardRoom x.2⟩
    · exact ⟨by have := congrArg PortState.buffer h.office; simp only at this; show s.office.buffer.length ≤ _; rw [this]; exact x.1, h.officeRoom x.2⟩
  queue := h.queue
  mem x := by unfold State.memoriesCanonical at *; rw [h.planMem, h.tallyMem]; exact x
  clock x := by rw [h.clock]; exact x
  books := h.books
  map x := by unfold BillingEngine.mapSingle at *; rw [h.map]; exact x
  acc x := by
    unfold Deliveries.accounted at *
    rw [h.log, h.opened, h.taken, ← x]
    congr 2
    apply countP_eq
    intro c
    have := congrArg (Option.map not) (h.channels c)
    simpa [State.channel, Option.map_map, Function.comp_def] using this
  tally x := by
    unfold Tally.sound at *
    rw [h.tally]; exact x
  period := h.period

theorem keeps {r s t : State} (h : r.Sound s) (g : s.Keeps t) : r.Sound t := h.trans (of_keeps g)

/-- A change of one port. -/
theorem withPort {r s : State} (h : r.Sound s) (p : Port) (f : PortState → PortState)
    (hf : (s.port p).bounded → (f (s.port p)).bounded) : r.Sound (s.withPort p f) := by
  refine h.trans ⟨?_, ?_, ?_, ?_, ?_, ?_, ?_, ?_, ?_⟩
  · intro q x
    rw [State.port_withPort]
    split
    · rename_i e; subst e; exact hf x
    · exact x
  all_goals cases p <;> exact id

theorem kick_bounded (q : PortState) (h : q.bounded) : q.kick.bounded := by
  unfold PortState.kick
  split
  · exact h
  · exact h
  · rename_i n rest _ _ hn
    refine ⟨h.1, ?_⟩
    have := h.2
    simp_all; omega
  · exact h

theorem takeNext_bounded (q : PortState) (b : Bool) (h : q.bounded) : (q.takeNext b).bounded := by
  unfold PortState.takeNext
  repeat' split
  all_goals try exact h
  obtain ⟨h1, h2⟩ := h
  refine ⟨?_, h2⟩
  simp_all
  omega

theorem transmit {r s : State} (h : r.Sound s) : r.Sound s.transmit := by
  refine h.trans ⟨?_, id, id, id, id, id, id, id, id⟩
  intro p x
  rw [State.port_transmit]
  exact takeNext_bounded _ _ (kick_bounded _ x)

theorem answer {r s : State} (h : r.Sound s) (p : Port) (x : Reply) : r.Sound (s.answer p x) := h.withPort p _ id

theorem judged {r s : State} (h : r.Sound s) (p : Port) : r.Sound (s.judged p) := h.withPort p _ id

theorem deliver {r : State} (p : Port) {a : Answered} (h : r.Sound a.1) : r.Sound (Sys2Proof.Machine.deliver p a) := by
  unfold Sys2Proof.Machine.deliver
  split
  · exact h.answer _ _
  · exact h

theorem serveWhere {r s : State} (h : r.Sound s) (acc : Frame → Bool) (p : Port) (row : RequestRow)
    (owner : List Nat → State → Answered)
    (ho : ∀ (bs : List Byte) (fields : List Nat) (t : State), row.layout.parse bs = .ok fields → t.Sound (owner fields t).1) :
    r.Sound (Sys2Proof.Machine.serveWhere acc p row owner s) := by
  unfold Sys2Proof.Machine.serveWhere
  split
  · exact h
  · rename_i x hr
    split
    · split
      · exact (h.judged p).answer _ _
      · rename_i fields hj
        refine deliver p ((h.judged p).trans (ho x.payload fields _ ?_))
        unfold judge at hj
        split at hj
        · cases hj
        · split at hj
          · cases hj
          · exact hj
    · exact h

theorem unlessRefused {r s : State} {checks : List (Bool × Reply)} {act : Answered} (h : r.Sound s)
    (ha : (∀ c ∈ checks, c.1 = false) → r.Sound act.1) : r.Sound (Sys2Proof.Machine.unlessRefused s checks act).1 := by
  unfold Sys2Proof.Machine.unlessRefused
  split
  · exact h
  · rename_i hn
    refine ha ?_
    intro c hc
    rw [List.find?_eq_none] at hn
    simpa using hn c hc

theorem finished {r : State} {a : Answered} (h : r.Sound a.1) : r.Sound (Sys2Proof.Machine.finished a).1 := by
  unfold Sys2Proof.Machine.finished
  split
  · exact h
  all_goals exact h.keeps (State.Keeps.refl _).finish

/-- The loader is in none of the laws. -/
theorem withLoader {r s : State} (h : r.Sound s) (x : Loader) : r.Sound { s with loader := x } :=
  h.trans ⟨fun p => by cases p <;> exact id, id, id, id, id, id, id, id, id⟩

theorem withWindows {r s : State} (h : r.Sound s) (x : Windows) : r.Sound { s with windows := x } :=
  h.trans ⟨fun p => by cases p <;> exact id, id, id, id, id, id, id, id, id⟩

theorem withMarks {r s : State} (h : r.Sound s) (x : Table 12 Marks) : r.Sound { s with marks := x } :=
  h.trans ⟨fun p => by cases p <;> exact id, id, id, id, id, id, id, id, id⟩

theorem withClock {r s : State} (h : r.Sound s) (x : Clock) (hx : s.clock.inRange → x.inRange) : r.Sound { s with clock := x } :=
  h.trans ⟨fun p => by cases p <;> exact id, id, id, hx, id, id, id, id, id⟩

theorem withTenths {r s : State} (h : r.Sound s) (x : Nat) : r.Sound { s with tenths := x } :=
  h.trans ⟨fun p => by cases p <;> exact id, id, id, id, id, id, id, id, id⟩

theorem withMap {r s : State} (h : r.Sound s) (b : BillingEngine)
    (hc : b.circuits = s.billing.circuits) (hf : b.inFlight = s.billing.inFlight)
    (hm : s.billing.mapSingle → b.mapSingle) : r.Sound { s with billing := b } :=
  h.trans ⟨fun p => by cases p <;> exact id, id, id, id, State.Keeps.books_of_eq hc hf, hm, id, id, id⟩

theorem withPeriod {r s : State} (h : r.Sound s) (x : Period) (hx : s.period.placesKept → x.placesKept) : r.Sound { s with period := x } :=
  h.trans ⟨fun p => by cases p <;> exact id, id, id, id, id, id, id, id, hx⟩

theorem withTally {r s : State} (h : r.Sound s) (x : Tally) (hx : s.tally.sound → x.sound) : r.Sound { s with tally := x } :=
  h.trans ⟨fun p => by cases p <;> exact id, id, id, id, id, id, id, hx, id⟩

theorem withMem {r s : State} (h : r.Sound s) (m n : Memory) (hm : s.planMem.wf = true → m.wf = true) (hn : s.tallyMem.wf = true → n.wf = true) :
    r.Sound { s with planMem := m, tallyMem := n } :=
  h.trans ⟨fun p => by cases p <;> exact id, id, fun x => ⟨hm x.1, hn x.2⟩, id, id, id, id, id, id⟩

/-! ### Owners of requests -/

theorem fieldValues_lt (ws : List Nat) : ∀ (bs : List Byte) (k : Nat), (fieldValues ws bs).getD k 0 < 256 ^ (ws.getD k 0) := by
  induction ws with
  | nil => intro bs k; simp [fieldValues]
  | cons w ws ih =>
    intro bs k
    rw [fieldValues]
    cases k with
    | zero =>
      simp only [List.getD_cons_zero]
      refine lt_of_lt_of_le (fromBe_lt _) ?_
      exact Nat.pow_le_pow_right (by omega) (by simp)
    | succ k => simp only [List.getD_cons_succ]; exact ih _ _

theorem ownIdentify (n : Nat) (fields : List Nat) (t : State) : t.Sound (ownIdentify n fields t).1 := by
  unfold Sys2Proof.Machine.ownIdentify
  dsimp only [done]
  split
  · exact refl t
  · exact (refl t).withLoader _

theorem ownResetPart (fields : List Nat) (t : State) : t.Sound (ownResetPart fields t).1 :=
  unlessRefused (refl t) fun _ => of_keeps ((State.Keeps.refl t).withWork _)

theorem writePlanBytes {r s : State} (h : r.Sound s) (bs : List Byte) : r.Sound (s.writePlanBytes bs) := by
  unfold State.writePlanBytes
  split
  · exact h.withMem _ s.tallyMem (Memory.wf_writeBytes _ _) id
  · exact h

theorem addPiece (p : PendingSection) (t : State) : t.Sound (addPiece t p).1 := by
  unfold Sys2Proof.Machine.addPiece
  split
  · exact (refl t).withLoader _
  · exact ((refl t).writePlanBytes _).withLoader _

theorem ownWritePlan (fields : List Nat) (t : State) : t.Sound (ownWritePlan fields t).1 :=
  unlessRefused (refl t) fun _ => addPiece _ t

theorem ownSetClock (bs : List Byte) (fields : List Nat) (t : State) (hp : RequestRow.setClock.layout.parse bs = .ok fields) :
    t.Sound (ownSetClock fields t).1 := by
  refine unlessRefused (refl t) fun hc => ?_
  refine (refl t).withClock _ fun _ => ⟨?_, ?_⟩
  · have hw : fields = fieldValues [1, 3] bs := by
      have : RequestRow.setClock.layout = .fixed [1, 3] := rfl
      rw [this] at hp
      simp only [Layout.parse, parseFixed] at hp
      split at hp
      · cases hp
      · split at hp
        · cases hp
        · cases hp; rfl
    have := fieldValues_lt [1, 3] bs 0
    rw [← hw] at this
    simp [arg, Config.lastDay] at *
    omega
  · have := hc _ (List.mem_cons_self ..)
    simpa using this

theorem ownStartClock (fields : List Nat) (t : State) : t.Sound (ownStartClock fields t).1 :=
  unlessRefused (refl t) fun _ => (refl t).withClock _ id

theorem ownStopClock (fields : List Nat) (t : State) : t.Sound (ownStopClock fields t).1 :=
  unlessRefused (refl t) fun _ => (refl t).withClock _ id

theorem ownReadClock (fields : List Nat) (t : State) : t.Sound (ownReadClock fields t).1 := refl t
theorem ownReadTariff (fields : List Nat) (t : State) : t.Sound (ownReadTariff fields t).1 := refl t

theorem ownWriteTariff (fields : List Nat) (t : State) : t.Sound (ownWriteTariff fields t).1 := by
  unfold Sys2Proof.Machine.ownWriteTariff
  dsimp only
  split
  · exact refl t
  · exact (refl t).withClock _ id

theorem ownSetSweep (fields : List Nat) (t : State) : t.Sound (ownSetSweep fields t).1 :=
  unlessRefused (refl t) fun _ => (refl t).withClock _ id

theorem ownWriteWindow (fields : List Nat) (t : State) : t.Sound (ownWriteWindow fields t).1 := by
  unfold Sys2Proof.Machine.ownWriteWindow
  dsimp only
  split
  · exact refl t
  · split
    · exact refl t
    · split
      · exact ⟨fun p => by cases p <;> exact id, id, id, id, id, id, id, id, id⟩
      · exact (refl t).withWindows _

theorem ownReadWindow (fields : List Nat) (t : State) : t.Sound (ownReadWindow fields t).1 :=
  unlessRefused (refl t) fun _ => refl t

theorem ownReadStation (fields : List Nat) (t : State) : t.Sound (ownReadStation fields t).1 := by
  unfold Sys2Proof.Machine.ownReadStation
  dsimp only
  repeat' split
  all_goals exact refl t

theorem ownLeaseSet (fields : List Nat) (t : State) : t.Sound (ownLeaseSet fields t).1 :=
  unlessRefused (refl t) fun _ => of_keeps ((State.Keeps.refl t).changeSet _ _)

theorem ownStartSet (fields : List Nat) (t : State) : t.Sound (ownStartSet fields t).1 := by
  refine unlessRefused (refl t) fun _ => ?_
  repeat' split
  all_goals first | exact refl t | exact of_keeps ((State.Keeps.refl t).startFromStopped _) | exact of_keeps ((State.Keeps.refl t).returnOnline _)

theorem ownStopSet (fields : List Nat) (t : State) : t.Sound (ownStopSet fields t).1 :=
  unlessRefused (refl t) fun _ => of_keeps (((State.Keeps.refl t).enterSet _ _).changeSet _ _)

theorem ownClearFault (fields : List Nat) (t : State) : t.Sound (ownClearFault fields t).1 :=
  unlessRefused (refl t) fun _ => of_keeps (((State.Keeps.refl t).changeSet _ _).offerAwaited _ _)

theorem ownAckAlarms (fields : List Nat) (t : State) : t.Sound (ownAckAlarms fields t).1 :=
  unlessRefused (refl t) fun _ => of_keeps ((State.Keeps.refl t).changeSet _ _)

theorem ownSetMarks (fields : List Nat) (t : State) : t.Sound (ownSetMarks fields t).1 :=
  unlessRefused (refl t) fun _ => (refl t).withMarks _

theorem ownReadSet (fields : List Nat) (t : State) : t.Sound (ownReadSet fields t).1 :=
  unlessRefused (refl t) fun _ => refl t

theorem ownReadChannel (fields : List Nat) (t : State) : t.Sound (ownReadChannel fields t).1 := by
  unfold Sys2Proof.Machine.ownReadChannel
  dsimp only
  split <;> exact refl t

theorem ownAssignInput (fields : List Nat) (t : State) : t.Sound (ownAssignInput fields t).1 :=
  unlessRefused (refl t) fun _ => of_keeps ((State.Keeps.refl t).changeStage _ _)

theorem ownSetStage (fields : List Nat) (t : State) : t.Sound (ownSetStage fields t).1 :=
  unlessRefused (refl t) fun _ => of_keeps ((State.Keeps.refl t).changeStage _ _)

theorem ownChangeOver (fields : List Nat) (t : State) : t.Sound (ownChangeOver fields t).1 :=
  unlessRefused (refl t) fun _ => of_keeps ((State.Keeps.refl t).beginChangeover _ _ _ _)

theorem ownRestoreStage (fields : List Nat) (t : State) : t.Sound (ownRestoreStage fields t).1 :=
  unlessRefused (refl t) fun _ => of_keeps ((State.Keeps.refl t).beginChangeover _ _ _ _)

theorem ownAbortChangeover (fields : List Nat) (t : State) : t.Sound (ownAbortChangeover fields t).1 := by
  unfold Sys2Proof.Machine.ownAbortChangeover
  dsimp only
  split
  · exact refl t
  · split
    · exact refl t
    · unfold abortStep
      repeat' split
      all_goals first
        | exact refl t
        | exact of_keeps ((State.Keeps.refl t).endChangeover _ _ _ _)
        | exact of_keeps (((State.Keeps.refl t).changeContext _ _).enterClose _ _)

theorem ownReadStage (fields : List Nat) (t : State) : t.Sound (ownReadStage fields t).1 := by
  unfold Sys2Proof.Machine.ownReadStage
  dsimp only
  split <;> exact refl t

theorem ownReadMiss (fields : List Nat) (t : State) : t.Sound (ownReadMiss fields t).1 :=
  of_keeps ((State.Keeps.refl t).withRest _ _ _ _ _ _)

theorem ownReadMap (fields : List Nat) (t : State) : t.Sound (ownReadMap fields t).1 :=
  unlessRefused (refl t) fun _ => refl t

theorem ownReadCircuit (fields : List Nat) (t : State) : t.Sound (ownReadCircuit fields t).1 := by
  unfold Sys2Proof.Machine.ownReadCircuit
  dsimp only
  split <;> exact refl t

theorem ownStatement (p : Port) (fields : List Nat) (t : State) : t.Sound (ownStatement p fields t).1 :=
  unlessRefused (refl t) fun _ => of_keeps ((State.Keeps.refl t).withWork _)

theorem ownRewriteAccount (fields : List Nat) (t : State) : t.Sound (ownRewriteAccount fields t).1 :=
  unlessRefused (refl t) fun _ => of_keeps ((State.Keeps.refl t).withWork _)

theorem ownFlushTotals (fields : List Nat) (t : State) : t.Sound (ownFlushTotals fields t).1 :=
  of_keeps ((State.Keeps.refl t).withWork _)

theorem ownInitTally (fields : List Nat) (t : State) : t.Sound (ownInitTally fields t).1 :=
  unlessRefused (refl t) fun _ => of_keeps ((State.Keeps.refl t).withWork _)

theorem ownReadTallyFault (fields : List Nat) (t : State) : t.Sound (ownReadTallyFault fields t).1 :=
  (refl t).withTally _ id

theorem ownReadPeriod (fields : List Nat) (t : State) : t.Sound (ownReadPeriod fields t).1 := refl t

theorem ownTakeHireRecord (fields : List Nat) (t : State) : t.Sound (ownTakeHireRecord fields t).1 := by
  unfold Sys2Proof.Machine.ownTakeHireRecord
  split
  · exact refl t
  · rename_i hh
    refine (refl t).withPeriod _ ?_
    unfold Period.placesKept
    rw [hh]; simp; omega

theorem ownClosePeriod (fields : List Nat) (t : State) : t.Sound (ownClosePeriod fields t).1 := by
  refine unlessRefused (refl t) fun hc => ?_
  refine keeps ((refl t).withPeriod _ ?_) ((State.Keeps.refl _).callClosing)
  have h3 := hc (decide (Config.hireCap - t.period.hire.length < t.leasedSets.length), refuse .full 0) (by simp)
  simp only [decide_eq_false_iff_not] at h3
  unfold Period.placesKept
  simp only [Option.elim_some]
  intro h
  cases hcl : t.period.close <;> simp [hcl] at h <;> omega

theorem ownReleaseSet (fields : List Nat) (t : State) : t.Sound (ownReleaseSet fields t).1 := by
  refine unlessRefused (refl t) fun hc => ?_
  have h4 := hc (t.period.fullFor (arg fields 1), refuse .full 0) (by simp)
  split
  · exact refl t
  · refine keeps ((refl t).withPeriod _ ?_) ((State.Keeps.refl _).changeSet _ _)
    simp only [Period.fullFor] at h4
    unfold Period.placesKept Period.uncount
    intro h
    cases hcl : t.period.close with
    | none => simp [hcl] at h h4 ⊢; omega
    | some c =>
      simp [hcl] at h h4 ⊢
      by_cases hm : arg fields 1 ∈ c.counted
      · have : (c.counted.filter fun i => i != arg fields 1).length < c.counted.length := by
          apply List.length_filter_lt_length_iff_exists.2
          exact ⟨_, hm, by simp⟩
        omega
      · have := h4 hm
        have := List.length_filter_le (fun i => i != arg fields 1) c.counted
        omega

/-! ### Deliveries (06) -/

theorem countP_modify (l : List Channel) (c : Nat) (x : Channel) (f : Channel → Channel) (h : l[c]? = some x) (p : Channel → Bool) :
    (l.modify c f).countP p + (if p x then 1 else 0) = l.countP p + (if p (f x) then 1 else 0) := by
  induction l generalizing c with
  | nil => simp at h
  | cons a l ih =>
    cases c with
    | zero => simp at h; subst h; simp [List.countP_cons]; omega
    | succ c =>
      simp at h
      have := ih c h
      simp [List.countP_cons]; omega

theorem withDeliveries {r s : State} (h : r.Sound s) (d : Deliveries) (hd : s.deliveries.accounted → d.accounted) :
    r.Sound { s with deliveries := d } :=
  h.trans ⟨fun p => by cases p <;> exact id, id, id, id, id, id, hd, id, id⟩

theorem closeDelivery {r s : State} (h : r.Sound s) (c : Nat) (d : Delivery) (b : Bool) {x : Channel}
    (hx : s.channel c = some x) (hi : x.isIdle = false) : r.Sound (s.closeDelivery c d b) := by
  unfold State.closeDelivery
  dsimp only
  have hk : r.Sound (s.deliveryClosedTo d.set (d.record c (s.levelOf d.set) (s.rateInUse d.set) b s.now).burn) := by
    refine h.keeps ?_
    exact (State.Keeps.refl s).changeSet _ _
  generalize hs : s.deliveryClosedTo d.set _ = u at hk
  have hux : u.channel c = some x := by rw [← hs]; exact hx
  unfold State.fileRecord
  dsimp only
  have hcell : u.deliveries.channels.cells[c]? = some x := hux
  split
  · refine hk.trans (keeps (withDeliveries (refl u) _ ?_) ((State.Keeps.refl _).post _ _))
    unfold Deliveries.accounted
    have := countP_modify _ c x (fun y => { y with state := ChannelState.idle }) hcell (fun c => !c.isIdle)
    simp only [hi] at this
    simp [Channel.isIdle, Table.modify] at this ⊢
    omega
  · refine hk.trans (keeps (withDeliveries (refl u) _ ?_) (((State.Keeps.refl _).post _ _).post _ _))
    unfold Deliveries.accounted
    have := countP_modify _ c x (fun y => { y with state := ChannelState.heldLog (d.record c (s.levelOf d.set) (s.rateInUse d.set) b s.now) u.deliveries.nextHeld }) hcell (fun c => !c.isIdle)
    simp only [hi] at this
    simp [Channel.isIdle, Table.modify] at this ⊢
    omega

theorem closeOpenDelivery {r s : State} (h : r.Sound s) (c : Nat) (d : Delivery) (b : Bool) (hc : (s.channel c).isSome)
    (ho : ∀ x, s.channel c = some x → x.isIdle = false) : r.Sound (s.closeDelivery c d b) := by
  obtain ⟨x, hx⟩ := Option.isSome_iff_exists.1 hc
  exact h.closeDelivery c d b hx (ho x hx)

theorem isSome_of_delivery {s : State} {c : Nat} {d : Delivery} (h : s.delivery c = some d) : (s.channel c).isSome := by
  unfold State.delivery at h
  cases hx : s.channel c <;> simp_all

theorem settleExpiry {r s : State} (h : r.Sound s) (c : Nat) : r.Sound (settleExpiry s c) := by
  unfold Sys2Proof.Machine.settleExpiry
  split
  · rename_i d hd
    refine h.closeOpenDelivery c d false ?_ (State.Keeps.isIdle_of_state hd (by simp))
    unfold State.channelState at hd
    cases hx : s.channel c <;> simp_all
  · exact h

theorem ownOpenDelivery (fields : List Nat) (t : State) : t.Sound (ownOpenDelivery fields t).1 := by
  refine unlessRefused (refl t) fun hc => ?_
  have hidle := hc (!(t.channel (arg fields 1)).elim true Channel.isIdle, refuse .state 1) (by simp)
  have hrange := hc (decide (2 < arg fields 1), refuse .range 1) (by simp)
  refine keeps (withDeliveries (refl t) _ ?_) ((State.Keeps.refl _).offer _ _ _)
  have hs := t.deliveries.channels.get_isSome (arg fields 1)
  simp at hrange
  obtain ⟨x, hx⟩ : ∃ x, t.deliveries.channels.get (arg fields 1) = some x := by
    apply Option.isSome_iff_exists.1; rw [hs]; simp; omega
  simp [State.channel, hx] at hidle
  unfold Deliveries.accounted
  intro h
  have := fun d => countP_modify _ _ x (fun y => { y with state := ChannelState.armed d }) (show t.deliveries.channels.cells[arg fields 1]? = some x from hx) (fun c => !c.isIdle)
  simp only [hidle] at this
  simp [Channel.isIdle, Table.modify] at this ⊢
  rw [this]
  simp [Channel.isIdle] at h
  omega

theorem stopRequest {t : State} (c : Nat) (k : State → Delivery → State)
    (hk : ∀ (u : State) (d : Delivery), t.Keeps u → u.delivery c = some d → t.Sound (k u d)) :
    t.Sound (stopRequest t c k).1 := by
  unfold Sys2Proof.Machine.stopRequest
  split
  · exact refl t
  · show t.Sound (t.stopThen c k)
    unfold State.stopThen
    dsimp only
    have hp := (State.Keeps.refl t).stopPump c
    split
    · rename_i d hd
      exact hk _ d hp hd
    · exact of_keeps hp

theorem onChannel {t : State} (c : Nat) (k : ChannelState → Answered)
    (hk : ∀ q, t.channelState c = some q → t.Sound (k q).1) : t.Sound (onChannel t c k).1 := by
  unfold Sys2Proof.Machine.onChannel
  split
  · exact refl t
  · rename_i ch hch
    exact hk _ (by simp [State.channelState, hch])

theorem ownHoldDelivery (fields : List Nat) (t : State) : t.Sound (ownHoldDelivery fields t).1 := by
  refine onChannel _ _ fun q hq => ?_
  cases q with
  | armed d => exact stopRequest _ _ fun u d hu hd => of_keeps (hu.haltChannel _ _ _ (State.Keeps.isIdle_of_delivery hd))
  | flowing d => exact stopRequest _ _ fun u d hu hd => of_keeps (hu.haltChannel _ _ _ (State.Keeps.isIdle_of_delivery hd))
  | halted d k => exact of_keeps ((State.Keeps.refl t).setChannel _ _ fun x _ hx => (State.Keeps.isIdle_of_state hq (by simp) x hx).symm)
  | idle => exact refl t
  | settling _ _ => exact refl t
  | heldLog _ _ => exact refl t

theorem ownFinishDelivery (fields : List Nat) (t : State) : t.Sound (ownFinishDelivery fields t).1 := by
  refine onChannel _ _ fun q hq => ?_
  cases q with
  | armed d => exact stopRequest _ _ fun u d hu hd => of_keeps (hu.settleChannel _ _ (State.Keeps.isIdle_of_delivery hd))
  | flowing d => exact stopRequest _ _ fun u d hu hd => of_keeps (hu.settleChannel _ _ (State.Keeps.isIdle_of_delivery hd))
  | halted d k => exact of_keeps ((State.Keeps.refl t).settleChannel _ _ (State.Keeps.isIdle_of_state hq (by simp)))
  | idle => exact refl t
  | settling _ _ => exact refl t
  | heldLog _ _ => exact refl t

theorem ownCancelDelivery (fields : List Nat) (t : State) : t.Sound (ownCancelDelivery fields t).1 := by
  refine onChannel _ _ fun q hq => ?_
  cases q with
  | armed d =>
    exact stopRequest _ _ fun u d hu hd =>
      (of_keeps hu).closeOpenDelivery _ _ _ (isSome_of_delivery hd) (State.Keeps.isIdle_of_delivery hd)
  | _ => exact refl t

theorem ownResumeDelivery (fields : List Nat) (t : State) : t.Sound (ownResumeDelivery fields t).1 := by
  refine onChannel _ _ fun q hq => ?_
  cases q with
  | halted d k =>
    have ho := State.Keeps.isIdle_of_state hq (by simp)
    cases k with
    | hold =>
      refine unlessRefused (refl t) fun _ => ?_
      split
      · exact of_keeps ((State.Keeps.refl t).setChannel _ _ fun x _ hx => (ho x hx).symm)
      · split
        · exact refl t
        · refine of_keeps (State.Keeps.runPump ((State.Keeps.refl t).setChannel _ _ fun x _ hx => ?_) _)
          rw [ho x hx]
          split <;> rfl
    | _ => exact refl t
  | _ => exact refl t

theorem earliestHeld_spec {d : Deliveries} {c : Nat} {r : DeliveryRecord} (h : d.earliestHeld = some (c, r)) :
    ∃ x, d.channels.get c = some x ∧ x.isIdle = false := by
  unfold Deliveries.earliestHeld at h
  simp only [Option.map_eq_some_iff] at h
  obtain ⟨y, hy, hyc⟩ := h
  have := List.mem_of_find?_eq_some hy
  simp only [List.mem_filterMap, Option.map_eq_some_iff] at this
  obtain ⟨z, hz, w, hw, rfl⟩ := this
  cases hyc
  refine ⟨z.1, ?_, ?_⟩
  · exact List.mem_zipIdx_iff_getElem?.1 hz
  · unfold Channel.held at hw
    unfold Channel.isIdle
    cases hq : z.1.state <;> simp_all

theorem ownTakeDeliveryRecord (fields : List Nat) (t : State) : t.Sound (ownTakeDeliveryRecord fields t).1 := by
  unfold Sys2Proof.Machine.ownTakeDeliveryRecord
  split
  · exact refl t
  · rename_i rec rest hl
    have h1 : t.Sound { t with deliveries := { t.deliveries with log := rest, taken := t.deliveries.taken + 1 } } := by
      refine (refl t).withDeliveries _ ?_
      unfold Deliveries.accounted; rw [hl]; simp; omega
    refine h1.trans ?_
    show State.Sound _ (State.releaseHeld _)
    unfold State.releaseHeld
    split
    · rename_i c x hx
      obtain ⟨y, hy, hyi⟩ := earliestHeld_spec hx
      refine withDeliveries (refl _) _ ?_
      unfold Deliveries.accounted
      have := countP_modify _ c y (fun y => { y with state := ChannelState.idle }) (show t.deliveries.channels.cells[c]? = some y from hy) (fun c => !c.isIdle)
      simp only [hyi] at this
      simp [Channel.isIdle, Table.modify] at this ⊢
      omega
    · exact refl _

/-! ### The circuit map (09) -/

theorem freeEntries_single (b : BillingEngine) (p : MapEntry → Bool) (h : b.mapSingle) : (b.freeEntries p).mapSingle := by
  have key : ∀ i x, (b.freeEntries p).map.used i = some x → b.map.used i = some x := by
    intro i x hx
    simp only [BillingEngine.freeEntries, Table.used, Table.get_map] at hx
    cases hg : b.map.get i with
    | none => simp [hg] at hx
    | some o =>
      cases o with
      | none => simp [hg] at hx
      | some y => simp [hg, Option.filter] at hx; simp [Table.used, hg]; simpa using hx.2
  intro i j x y hi hj hxy
  exact h i j x y (key i x hi) (key j y hj) hxy

theorem ownClearMapAll (fields : List Nat) (t : State) : t.Sound (ownClearMapAll fields t).1 :=
  unlessRefused (refl t) fun _ => (refl t).withMap _ rfl rfl fun h => freeEntries_single _ _ h

theorem ownClearMapUnpinned (fields : List Nat) (t : State) : t.Sound (ownClearMapUnpinned fields t).1 :=
  unlessRefused (refl t) fun _ => (refl t).withMap _ rfl rfl fun h => freeEntries_single _ _ h

theorem ownClearMapCircuit (fields : List Nat) (t : State) : t.Sound (ownClearMapCircuit fields t).1 :=
  unlessRefused (refl t) fun _ => (refl t).withMap _ rfl rfl fun h => freeEntries_single _ _ h

theorem ownInstallMap (fields : List Nat) (t : State) : t.Sound (ownInstallMap fields t).1 := by
  refine unlessRefused (refl t) fun _ => ?_
  split
  · exact refl t
  · rename_i p hp
    refine (refl t).withMap _ rfl rfl ?_
    intro h
    have hex : ∀ k y, t.billing.map.used k = some y → y.circuit = arg fields 1 → k = p.entry := by
      intro k y hk hy
      have hg : t.billing.map.get k = some (some y) := by
        unfold Table.used at hk
        cases hg : t.billing.map.get k <;> simp_all
      unfold BillingEngine.placeFor at hp
      cases he : t.billing.entryOf (arg fields 1) with
      | some e =>
        rw [he] at hp
        simp at hp
        subst hp
        unfold BillingEngine.entryOf at he
        obtain ⟨⟨x, hx, hxc⟩, _⟩ := (Table.find_eq_some ..).1 he
        cases x with
        | none => simp at hxc
        | some x =>
          simp at hxc
          exact h k e y x hk (by simp [Table.used, hx]) (hy.trans hxc.symm)
      | none =>
        unfold BillingEngine.entryOf at he
        have := (Table.find_eq_none ..).1 he k _ hg
        simp [hy] at this
    intro i j x y hi hj hxy
    simp only [Table.used, Table.get_set] at hi hj
    have sel : ∀ k z, (if p.entry = k then (t.billing.map.get k).map (fun _ => some (⟨arg fields 1, arg fields 2, arg fields 3 == 1, arg fields 4 == 1⟩ : MapEntry)) else t.billing.map.get k).bind id = some z →
        (p.entry = k ∧ z.circuit = arg fields 1) ∨ (p.entry ≠ k ∧ t.billing.map.used k = some z) := by
      intro k z hz
      split at hz
      · left
        refine ⟨‹_›, ?_⟩
        cases hg : t.billing.map.get k <;> simp [hg] at hz
        rw [← hz]
      · right
        exact ⟨‹_›, hz⟩
    rcases sel i x hi with ⟨h1, h2⟩ | ⟨h1, h2⟩ <;> rcases sel j y hj with ⟨h3, h4⟩ | ⟨h3, h4⟩
    · rw [← h1, ← h3]
    · exact absurd (hex j y h4 (by rw [← hxy, h2])).symm h3
    · exact absurd (hex i x h2 (by rw [hxy, h4])).symm h1
    · exact h i j x y h2 h4 hxy

/-! ### Meter reports (08) -/

theorem read_balanced (q : Circuit) (x : Word32) (n : Stamp) (h : q.balanced) (hu : q.blankIfUnread) :
    (q.read x n).balanced ∧ (q.read x n).blankIfUnread := by
  unfold Circuit.read
  split
  · rename_i hs
    have := hu (by simpa using hs)
    refine ⟨?_, fun hs => by cases hs⟩
    unfold Circuit.balanced
    simp [this]
  · exact ⟨h, hu⟩

theorem withCircuits {r s : State} (h : r.Sound s) (c : Table 96 Circuit) (hb : s.booksBalance →
    State.booksBalance { s with billing := { s.billing with circuits := c } }) :
    r.Sound { s with billing := { s.billing with circuits := c } } :=
  h.trans ⟨fun p => by cases p <;> exact id, id, id, id, hb, id, id, id, id⟩

theorem applyMeterReport {r s : State} (h : r.Sound s) (k : Nat) (cs : List Word32) : r.Sound (s.applyMeterReport k cs) := by
  refine h.withCircuits _ ?_
  rintro ⟨hb, hn, hf⟩
  have key : ∀ c q, (s.billing.circuits.mapIdx fun c r => if onStation k c then match cs[c % 8]? with | some x => r.read x s.now | none => r else r).get c = some q →
      ∃ r, s.circuit c = some r ∧ (q = r ∨ ∃ x, q = r.read x s.now) := by
    intro c q hq
    simp only [Table.get_mapIdx, Option.map_eq_some_iff] at hq
    obtain ⟨r, hr, rfl⟩ := hq
    refine ⟨r, hr, ?_⟩
    split
    · split
      · exact Or.inr ⟨_, rfl⟩
      · exact Or.inl rfl
    · exact Or.inl rfl
  refine ⟨?_, hn, ?_⟩
  · intro c q hq
    obtain ⟨r, hr, rfl | ⟨x, rfl⟩⟩ := key c q hq
    · exact hb c _ hr
    · exact read_balanced _ _ _ (hb c r hr).1 (hb c r hr).2
  · intro b hbm hst q hq
    obtain ⟨r, hr, rfl | ⟨x, rfl⟩⟩ := key _ q hq
    · exact hf b hbm hst _ hr
    · have := hf b hbm hst r hr
      unfold Circuit.read
      split
      · rename_i hs; exact absurd (by simpa using hs) this.1
      · exact this

theorem unreadStation {r s : State} (h : r.Sound s) (k : Nat) (o : Option Nat) : r.Sound (s.unreadStation k o) := by
  refine h.trans ⟨fun p => by cases p <;> exact id, id, id, id, ?_, id, id, id, id⟩
  rintro ⟨hb, hn, hf⟩
  refine ⟨?_, ?_, ?_⟩
  · intro c q hq
    simp only [State.circuit, State.unreadStation, Table.get_mapIdx, Option.map_eq_some_iff] at hq
    obtain ⟨r, hr, rfl⟩ := hq
    split
    · refine ⟨?_, ?_⟩
      · unfold Circuit.balanced Circuit.reset; simp
      · intro _; exact ⟨rfl, rfl⟩
    · exact hb c r hr
  · have : ((s.unreadStation k o).billing.inFlight.map fun b => b.circuit) = s.billing.inFlight.map fun b => b.circuit := by
      simp only [State.unreadStation, List.map_map]
      apply List.map_congr_left
      intro b _
      simp only [Function.comp]
      split <;> rfl
    rw [this]; exact hn
  · intro b hbm hst q hq
    simp only [State.unreadStation, List.mem_map] at hbm
    obtain ⟨b', hb', rfl⟩ := hbm
    split at hst
    · cases hst
    · rename_i hns
      rw [if_neg hns] at hq ⊢
      simp only [State.circuit, State.unreadStation, Table.get_mapIdx, Option.map_eq_some_iff] at hq
      obtain ⟨r, hr, rfl⟩ := hq
      rw [if_neg hns]
      exact hf b' hb' hst r hr

/-! ### Stations (04) -/

theorem withLine {r s : State} (h : r.Sound s) (l : Line) (hl : s.line.bounded → l.bounded) : r.Sound { s with line := l } :=
  h.trans ⟨fun p => by cases p <;> exact id, hl, id, id, id, id, id, id, id⟩

theorem withLine_of_eq {r s : State} (h : r.Sound s) (l : Line) (hl : l.queue = s.line.queue) : r.Sound { s with line := l } :=
  h.withLine l (by unfold Line.bounded; rw [hl]; exact id)

theorem objectPresent {r s : State} (h : r.Sound s) (c : StationClass) (o k : Nat) : r.Sound (s.objectPresent c o k) := by
  cases c with
  | set => exact h.keeps ((State.Keeps.refl s).withSets _)
  | bowser => exact h
  | board => exact h
  | meter => exact h.unreadStation _ _

theorem enrol {r s : State} (h : r.Sound s) (e a : Nat) (c : StationClass) (o k : Nat) : r.Sound (s.enrol e a c o k) :=
  by
    unfold State.enrol
    dsimp only
    refine objectPresent ?_ _ _ _
    exact h.withLine_of_eq _ rfl

theorem ownEnrolStation (fields : List Nat) (t : State) : t.Sound (ownEnrolStation fields t).1 := by
  refine unlessRefused (refl t) fun _ => ?_
  split
  · exact (refl t).enrol _ _ _ _ _
  · exact refl t

theorem setRemoved {r s : State} (h : r.Sound s) (i : Nat) : r.Sound (s.setRemoved i) :=
  h.trans ⟨fun p => by cases p <;> exact id, id, id, id, id, id, id, id, id⟩

theorem objectGone {r s : State} (h : r.Sound s) (c : StationClass) (o : Nat) : r.Sound (s.objectGone c o) := by
  cases c with
  | set => exact h.setRemoved o
  | bowser => exact h.keeps ((State.Keeps.refl s).changeChannel _ _ fun _ _ => rfl)
  | board => exact h.keeps ((State.Keeps.refl s).boardRemoved o)
  | meter => exact h.unreadStation _ _

theorem voidTransaction_queue (l : Line) (c : StationClass) (o : Nat) : (l.voidTransaction c o).queue = l.queue := by
  unfold Line.voidTransaction
  repeat' split
  all_goals rfl

theorem removeStation {r s : State} (h : r.Sound s) (e : Nat) (st : Station) : r.Sound (s.removeStation e st) := by
  unfold State.removeStation
  dsimp only
  refine objectGone ?_ _ _
  refine keeps ?_ (State.Keeps.refl _).admitWaiting
  have h1 := h.keeps ((State.Keeps.refl s).endOnly (fun c => c.isFor st.cls st.object) .removed)
  generalize s.endOnly _ _ = u at h1 ⊢
  refine h1.withLine_of_eq _ ?_
  exact voidTransaction_queue u.line _ _

theorem ownRemoveStation (fields : List Nat) (t : State) : t.Sound (ownRemoveStation fields t).1 := by
  unfold Sys2Proof.Machine.ownRemoveStation
  dsimp only
  repeat' split
  all_goals first | exact refl t | exact (refl t).removeStation _ _

theorem bounded_of_eq {l m : Line} (h : m.queue = l.queue) (hb : l.bounded) : m.bounded := by
  unfold Line.bounded at *; rw [h]; exact hb

theorem changeStation_queue (l : Line) (c : StationClass) (o : Nat) (f : Station → Station) : (l.changeStation c o f).queue = l.queue := by
  unfold Line.changeStation
  split <;> rfl

theorem handReport {r s : State} (h : r.Sound s) (o : Nat) (x : Report) : r.Sound (s.handReport o x) := by
  cases x with
  | set x => exact h.keeps (((State.Keeps.refl s).applySetReport _ _).deliverySetReport _ _ _)
  | bowser x => exact h.keeps ((State.Keeps.refl s).applyBowserReport _ _)
  | board x => exact h.keeps ((State.Keeps.refl s).applyBoardReport _ _)
  | meter cs => exact h.applyMeterReport _ _

theorem accept {r s : State} (h : r.Sound s) (t : Transaction) (st : Station) (x : Report) : r.Sound (s.accept t st x) := by
  unfold State.accept
  dsimp only
  have h1 := h.withLine_of_eq (s.line.changeStation t.cls t.object fun st =>
        { st with run := 0, lastGood := some s.now, state := .answering }) (changeStation_queue _ _ _ _)
  have h2 : r.Sound ((if (st.state == .lost) = true then State.post _ .stationBack st.noticeBytes else _ : State).handReport t.object x) :=
    handReport (by split; exact h1.keeps ((State.Keeps.refl _).post _ _); exact h1) _ _
  split
  · exact h2
  · exact h2.keeps ((State.Keeps.refl _).endCommands _ _)

theorem endTransaction {r s : State} (h : r.Sound s) : r.Sound s.endTransaction := h.withLine_of_eq _ rfl

theorem transactionAccepted {r s : State} (h : r.Sound s) (t : Transaction) (x : Report) : r.Sound (s.transactionAccepted t x) := by
  unfold State.transactionAccepted
  dsimp only
  have h1 : r.Sound ({ s with line := s.line.heardGood }.endTransaction : State) := h.withLine_of_eq _ rfl
  split
  · exact h1
  · split
    · exact h1.accept _ _ _
    · exact h1

theorem replyAccepted {r s : State} (h : r.Sound s) (raw : List Byte) : r.Sound (replyAccepted s raw) := by
  unfold Sys2Proof.Machine.replyAccepted
  repeat' split
  all_goals first | exact h | exact h.transactionAccepted _ _

theorem objectLost {r s : State} (h : r.Sound s) (c : StationClass) (o : Nat) : r.Sound (s.objectLost c o) := by
  cases c with
  | set => exact h.keeps (((State.Keeps.refl s).setLost _).gaugeLost _)
  | bowser => exact h.keeps ((State.Keeps.refl s).meterLost _)
  | board => exact h.keeps ((State.Keeps.refl s).boardLost _)
  | meter => exact h

theorem loseStation {r s : State} (h : r.Sound s) (st : Station) (f : LineFault) : r.Sound (s.loseStation st f) := by
  unfold State.loseStation
  dsimp only
  have h1 := (h.withLine_of_eq (s.line.changeStation st.cls st.object fun st => { st with state := .lost }) (changeStation_queue _ _ _ _)).keeps
    ((State.Keeps.refl _).post .stationLost (st.noticeBytes ++ be 1 f.value))
  exact (h1.objectLost _ _).keeps ((State.Keeps.refl _).endLostCommands _ _)

theorem failCommand {r s : State} (h : r.Sound s) (j : Job) : r.Sound (s.failCommand j) := by
  cases j with
  | poll => exact h
  | command n _ =>
    show r.Sound (if s.line.spent n then _ else s)
    split
    · exact h.keeps ((State.Keeps.refl _).endCommands _ _)
    · exact h

theorem failAttempt_bounded (l : Line) (n : Nat) (h : l.bounded) : (l.failAttempt n).bounded := by
  unfold Line.bounded Line.failAttempt at *
  simp only [List.length_map, List.filter_map]
  refine ⟨h.1, le_trans (le_of_eq ?_) h.2⟩
  congr 1
  refine List.filter_congr fun c _ => ?_
  simp only [Function.comp]
  split <;> rfl

theorem failStation {r s : State} (h : r.Sound s) (t : Transaction) (st : Station) (f : LineFault) : r.Sound (s.failStation t st f) := by
  unfold State.failStation
  split
  · exact h.withLine_of_eq _ (changeStation_queue _ _ _ _)
  · dsimp only
    have h1 : r.Sound { s with line := (s.line.changeStation t.cls t.object fun st =>
          { st with lastFault := some f, run := min (st.run + 1) Config.lostRun }).countAttempt t.job } := by
      refine h.withLine _ ?_
      intro hb
      have hb' := bounded_of_eq (changeStation_queue s.line t.cls t.object (fun st =>
          { st with lastFault := some f, run := min (st.run + 1) Config.lostRun })) hb
      cases t.job with
      | poll => exact hb'
      | command n _ => exact failAttempt_bounded _ _ hb'
    split
    · exact h1.loseStation _ _
    · exact h1.failCommand _

theorem transactionFailed {r s : State} (h : r.Sound s) (t : Transaction) (f : LineFault) : r.Sound (s.transactionFailed t f) := by
  unfold State.transactionFailed
  dsimp only
  split
  · exact h.endTransaction
  · split
    · exact h.endTransaction.failStation _ _ _
    · exact h.endTransaction

theorem heardEnd_queue (l : Line) (n : Nat) (e : LineEnd) : (l.heardEnd n e).queue = l.queue := by
  cases e <;> rfl

theorem transactionFault {r s : State} (h : r.Sound s) (n : Nat) (b : LineBytes) : r.Sound (transactionFault s n b) := by
  unfold Sys2Proof.Machine.transactionFault
  repeat' split
  all_goals first | exact h | exact (h.withLine_of_eq _ (heardEnd_queue _ _ _)).transactionFailed _ _

theorem listeningEnds {r s : State} (h : r.Sound s) (a : LineActivity) (f : LineFault) : r.Sound (listeningEnds s a f) := by
  unfold Sys2Proof.Machine.listeningEnds
  split
  · exact transactionFailed (h.withLine_of_eq (s.line.heard a.busyMs a.busyNow) rfl) _ _
  · exact h

theorem lineJammed {r s : State} (h : r.Sound s) : r.Sound (lineJammed s) := by
  unfold Sys2Proof.Machine.lineJammed
  split
  · exact h
  · refine keeps ?_ ((State.Keeps.refl _).post _ _)
    exact h.withLine_of_eq _ rfl

theorem lineClear {r s : State} (h : r.Sound s) : r.Sound (lineClear s) := by
  unfold Sys2Proof.Machine.lineClear
  split
  · refine keeps ?_ ((State.Keeps.refl _).post _ _)
    exact h.withLine_of_eq _ rfl
  · exact h

theorem lineQuiet {r s : State} (h : r.Sound s) : r.Sound (lineQuiet s) := h.withLine_of_eq _ rfl

theorem closingMarkSent {r s : State} (h : r.Sound s) : r.Sound (closingMarkSent s) := by
  unfold Sys2Proof.Machine.closingMarkSent
  repeat' split
  all_goals first | exact h | exact h.withLine_of_eq _ rfl

theorem frameOutside {r s : State} (h : r.Sound s) (x : List Byte) : r.Sound (frameOutside s x) := by
  unfold Sys2Proof.Machine.frameOutside
  split
  · exact h.withLine_of_eq _ rfl
  · exact h

theorem badFrameOutside {r s : State} (h : r.Sound s) (n : Nat) (x : LineBytes) : r.Sound (badFrameOutside s n x) := by
  unfold Sys2Proof.Machine.badFrameOutside
  split
  · exact h
  · exact h
  · exact h.withLine_of_eq _ rfl

/-! ### Console lines (01) -/

theorem offer_bounded (q : PortState) (f : Frame) (h : q.bounded) : (q.offer f).bounded := by
  unfold PortState.offer
  split
  · refine ⟨?_, h.2⟩
    simp_all
  · exact h

theorem receive_bounded (bs : List Byte) : ∀ q : PortState, q.bounded → (q.receive bs).bounded := by
  induction bs with
  | nil => intro q h; exact h
  | cons b rest ih =>
    intro q h
    show PortState.bounded (PortState.receive (match (rxByte q.rx b).2 with
      | some f => PortState.offer { q with rx := (rxByte q.rx b).1 } f
      | none => { q with rx := (rxByte q.rx b).1 }) rest)
    refine ih _ ?_
    cases (rxByte q.rx b).2 with
    | none => exact h
    | some f => exact offer_bounded _ _ h

theorem receive {r s : State} (h : r.Sound s) (p : Port) (bs : List Byte) : r.Sound (s.receive p bs) :=
  h.withPort p _ (receive_bounded bs _)

theorem breakOff {r s : State} (h : r.Sound s) (p : Port) (bs : List Byte) : r.Sound (s.breakOff p bs) :=
  h.withPort p _ fun hb => receive_bounded bs _ hb

theorem sent {r s : State} (h : r.Sound s) (p : Port) : r.Sound (s.withPort p PortState.sent) := by
  refine h.withPort p _ ?_
  unfold PortState.sent
  split <;> exact id

theorem refuseUnknown {r s : State} (h : r.Sound s) (p : Port) : r.Sound (s.refuseUnknown p) := by
  unfold State.refuseUnknown
  split
  · exact h
  · split
    · exact (h.judged p).answer _ _
    · exact h

/-! ### Start-up (12) -/

theorem forEach {r s : State} {f : State → Nat → State} (hf : ∀ s k, r.Sound s → r.Sound (f s k)) (n : Nat) (h : r.Sound s) :
    r.Sound (State.forEach n f s) := by
  unfold State.forEach
  induction List.range n generalizing s with
  | nil => exact h
  | cons a l ih => exact ih (hf _ _ h)

theorem placeStation {r s : State} (h : r.Sound s) (v : List Nat) (k : Nat) : r.Sound (State.placeStation v s k) := by
  unfold State.placeStation
  dsimp only
  split
  · exact h
  · split
    · exact h.enrol _ _ _ _ _
    · exact h

theorem placeStage {r s : State} (h : r.Sound s) (v : List Nat) (k : Nat) : r.Sound (State.placeStage v s k) := by
  unfold State.placeStage
  dsimp only
  split
  · exact h.keeps ((State.Keeps.refl _).changeStage _ _)
  · exact h

theorem placeMarks {r s : State} (h : r.Sound s) (v : List Nat) (k : Nat) : r.Sound (State.placeMarks v s k) := by
  unfold State.placeMarks
  dsimp only
  split
  · exact h.withMarks _
  · exact h

theorem placeWindow {r s : State} (h : r.Sound s) (v : List Byte) (k : Nat) : r.Sound (State.placeWindow v s k) := by
  unfold State.placeWindow
  split
  · dsimp only
    split
    · exact h.withWindows _
    · exact h
  · exact h

theorem applySweep {r s : State} (h : r.Sound s) (v : List Byte) : r.Sound (State.applySweep s v) := by
  unfold State.applySweep
  split
  · exact h.withClock _ id
  · exact h

theorem applyTally {r s : State} (h : r.Sound s) (v : List Byte) : r.Sound (State.applyTally s v) := h.withTally _ id

theorem ifTaken {r s : State} (h : r.Sound s) (d : Option (List Byte)) {f : State → List Byte → State} (hf : ∀ s bs, r.Sound s → r.Sound (f s bs)) :
    r.Sound (s.ifTaken d f) := by
  cases d with
  | none => exact h
  | some bs => exact hf _ _ h

theorem applySections {r s : State} (h : r.Sound s) (xs : List (List Byte)) : r.Sound (s.applySections xs) := by
  unfold State.applySections
  dsimp only
  refine ifTaken ?_ _ fun s bs h => forEach (fun s k h => h.placeWindow _ _) _ h
  refine ifTaken ?_ _ fun s bs h => h.applySweep _
  refine ifTaken ?_ _ fun s bs h => h.applyTally _
  refine ifTaken ?_ _ fun s bs h => forEach (fun s k h => h.placeMarks _ _) _ h
  refine ifTaken ?_ _ fun s bs h => forEach (fun s k h => h.placeStage _ _) _ h
  refine ifTaken ?_ _ fun s bs h => forEach (fun s k h => h.placeStation _ _) _ h
  exact h.withLoader _

theorem planLoaded {r s : State} (h : r.Sound s) : r.Sound (planLoaded s) := by
  unfold Sys2Proof.Machine.planLoaded
  split
  · exact h
  · dsimp only
    exact ((h.applySections _).withLoader _).keeps ((State.Keeps.refl _).post _ _)

theorem hardReset (s : State) (t : Option TornWrite) : s.Sound (hardReset s t) where
  ports p _ := by cases p <;> exact ⟨Nat.zero_le _, Nat.zero_le _⟩
  queue _ := ⟨Nat.zero_le _, Nat.zero_le _⟩
  mem h := State.wf_tear s t h.1 h.2
  clock _ := ⟨Nat.zero_le _, Nat.zero_le _⟩
  books _ := by
    refine ⟨?_, List.nodup_nil, fun b hb => by cases hb⟩
    intro c q hq
    simp only [State.circuit, Sys2Proof.Machine.hardReset, State.reset, BillingEngine.reset, Table.get_replicate] at hq
    split at hq
    · cases hq
      exact ⟨by unfold Circuit.balanced; decide, fun _ => ⟨rfl, rfl⟩⟩
    · cases hq
  map _ := by
    intro i j x y hi
    simp only [Sys2Proof.Machine.hardReset, State.reset, BillingEngine.reset, Table.used, Table.get_replicate] at hi
    split at hi <;> cases hi
  acc _ := by
    show State.reset.deliveries.accounted
    unfold Deliveries.accounted
    decide
  tally _ := by
    refine ⟨?_, List.nodup_nil, Nat.zero_le _⟩
    intro n l hl
    simp only [Sys2Proof.Machine.hardReset, State.reset, Tally.reset, Table.used, Table.get_replicate] at hl
    split at hl <;> cases hl
  period _ := by show State.reset.period.placesKept; unfold Period.placesKept; decide

/-! ### The Tally controller (09, 10) -/

theorem writeRecord_eq (s : State) (a : Nat) (x : AccountRecord) : ∃ m : Memory, s.writeRecord a x = { s with tallyMem := m } := by
  unfold State.writeRecord
  split
  · exact ⟨_, rfl⟩
  · exact ⟨s.tallyMem, rfl⟩

theorem writeRecord {r s : State} (h : r.Sound s) (a : Nat) (x : AccountRecord) : r.Sound (s.writeRecord a x) := by
  have hw := State.wf_writeRecord s a x
  obtain ⟨m, hm⟩ := writeRecord_eq s a x
  rw [hm] at hw ⊢
  exact h.withMem s.planMem m id hw

theorem tally_writeRecord (s : State) (a : Nat) (x : AccountRecord) : (s.writeRecord a x).tally = s.tally := by
  obtain ⟨m, hm⟩ := writeRecord_eq s a x
  rw [hm]

/-- A line takes an account of its own that is not quarantined. -/
theorem setLine {r s : State} (h : r.Sound s) (n : Nat) (l : Option CacheLine)
    (hl : s.tally.sound → ∀ x, l = some x → x.account % 64 = n ∧ x.account ∉ s.tally.quarantine) : r.Sound (s.setLine n l) := by
  refine h.withTally _ ?_
  rintro hs
  have hl := hl hs
  obtain ⟨h1, h2, h3⟩ := hs
  refine ⟨?_, h2, h3⟩
  intro j x hx
  simp only [Table.used, Table.get_set] at hx
  split at hx
  · rename_i hj
    subst hj
    cases hg : s.tally.lines.get n with
    | none => simp [hg] at hx
    | some _ => simp [hg] at hx; exact hl x hx
  · exact h1 j x hx

theorem writeBack {r s : State} (h : r.Sound s) (n : Nat) : r.Sound (s.writeBack n).1 := by
  unfold State.writeBack
  split
  · rename_i l hl
    split
    · refine (h.writeRecord _ _).setLine _ _ ?_
      rw [tally_writeRecord]
      rintro hs x hx
      cases hx
      exact hs.1 n l hl
    · exact h
  · exact h

theorem quarantine_writeBack (s : State) (n : Nat) : (s.writeBack n).1.tally.quarantine = s.tally.quarantine := by
  unfold State.writeBack
  split
  · split
    · show (State.writeRecord _ _ _).tally.quarantine = _
      rw [tally_writeRecord]
    · rfl
  · rfl

theorem fillLatch {r s : State} (h : r.Sound s) (u : Bool) (a w : Nat) (op : ReadOp) (n : Nat) : r.Sound (s.fillLatch u a w op n) := by
  unfold State.fillLatch
  refine keeps ?_ ((State.Keeps.refl _).post _ _)
  exact h.withTally _ id

theorem readCorrected {r s : State} (h : r.Sound s) (a : Nat) (x : AccountRecord) (w f : Nat) (op : ReadOp) :
    r.Sound (s.readCorrected a x w f op) := by
  unfold State.readCorrected
  dsimp only
  have h1 := (h.writeRecord a x).withTally { (s.writeRecord a x).tally with corrected := min ((s.writeRecord a x).tally.corrected + w) 65535 } id
  split
  · exact h1.fillLatch _ _ _ _ _
  · exact h1

theorem withTallyFrom {r s : State} (h : r.Sound s) (x : Tally) (hx : r.tally.sound → s.tally.sound → x.sound) :
    r.Sound { s with tally := x } :=
  ⟨fun p => by cases p <;> exact h.ports _, h.queue, h.mem, h.clock, h.books, h.map, h.acc, fun y => hx y (h.tally y), h.period⟩

/-- The account read is on no line and not quarantined. -/
theorem readFailed {r s : State} (h : r.Sound s) (a w : Nat) (op : ReadOp) (hq : a ∉ s.tally.quarantine)
    (hl : r.tally.sound → ∀ n l, s.tally.lines.used n = some l → l.account ≠ a) : r.Sound (s.readFailed a w op) := by
  unfold State.readFailed
  dsimp only
  have h1 : r.Sound (if decide (s.tally.quarantine.length < Config.quarantineCap) = true then { s with tally := { s.tally with quarantine := s.tally.quarantine ++ [a] } } else s) := by
    split
    · rename_i hr
      refine h.withTallyFrom _ ?_
      intro hr' hs
      have hl := hl hr'
      obtain ⟨h1, h2, h3⟩ := hs
      refine ⟨?_, ?_, ?_⟩
      · intro n l hn
        have := h1 n l hn
        refine ⟨this.1, ?_⟩
        simp [this.2, hl n l hn]
      · rw [List.nodup_append]
        refine ⟨h2, by simp, ?_⟩
        intro x hx y hy
        simp at hy; subst hy
        intro e; subst e; exact hq hx
      · simp at hr ⊢; omega
    · exact h
  split
  · exact h1.fillLatch _ _ _ _ _
  · exact h1.withTally _ id

theorem fetchRecord {r s : State} (h : r.Sound s) (a : Nat) (op : ReadOp) (hq : a ∉ s.tally.quarantine)
    (hl : r.tally.sound → ∀ n l, s.tally.lines.used n = some l → l.account ≠ a) : r.Sound (s.fetchRecord a op).1 := by
  unfold State.fetchRecord
  split
  · exact h
  · exact h.readCorrected _ _ _ _ _
  · exact h.readFailed _ _ _ hq hl

theorem tally_readCorrected (s : State) (a : Nat) (x : AccountRecord) (w f : Nat) (op : ReadOp) :
    (s.readCorrected a x w f op).tally.quarantine = s.tally.quarantine := by
  unfold State.readCorrected
  dsimp only
  split
  · unfold State.fillLatch; simp
  · simp

theorem fetchRecord_some {s t : State} {a : Nat} {op : ReadOp} {x : AccountRecord} (h : s.fetchRecord a op = (t, some x)) :
    t.tally.quarantine = s.tally.quarantine := by
  unfold State.fetchRecord at h
  split at h
  · cases h; rfl
  · cases h; exact tally_readCorrected _ _ _ _ _ _
  · cases h

theorem keepLine {r s : State} (h : r.Sound s) (a : Nat) (x : AccountRecord) (m : TotalMode) (hq : a ∉ s.tally.quarantine) :
    r.Sound (s.keepLine a x m) := by
  cases m with
  | held =>
    refine h.setLine _ _ ?_
    rintro _ y hy; cases hy; exact ⟨rfl, hq⟩
  | through =>
    refine (h.writeRecord _ _).setLine _ _ ?_
    rw [tally_writeRecord]
    rintro _ y hy; cases hy; exact ⟨rfl, hq⟩
  | direct =>
    refine (h.writeRecord _ _).setLine _ _ ?_
    rintro _ y hy; cases hy

theorem lineHolding_none {s : State} {a : Nat} (h : s.lineHolding a = none) (hs : s.tally.sound) :
    ∀ n l, s.tally.lines.used n = some l → l.account ≠ a := by
  intro n l hl he
  have := (hs.1 n l hl).1
  subst he
  unfold State.lineHolding at h
  have : lineOf l.account = n := this
  rw [this, hl] at h
  simp at h

theorem lines_writeBack {s : State} {n : Nat} {a : Nat} (h : ∀ n l, s.tally.lines.used n = some l → l.account ≠ a) :
    ∀ m l, (s.writeBack n).1.tally.lines.used m = some l → l.account ≠ a := by
  unfold State.writeBack
  split
  · rename_i l hl
    split
    · intro m x hx
      show x.account ≠ a
      have hx : ((State.writeRecord s l.account l.record).tally.lines.set n (some { l with dirty := false })).used m = some x := hx
      rw [tally_writeRecord] at hx
      simp only [Table.used, Table.get_set] at hx
      split at hx
      · cases hg : s.tally.lines.get m with
        | none => simp [hg] at hx
        | some _ =>
          simp [hg] at hx
          rw [← hx]; exact h n l hl
      · exact h m x hx
    · exact h
  · exact h

theorem performUpdate {r s : State} (h : r.Sound s) (u : AccountUpdate) : r.Sound (s.performUpdate u).1 := by
  unfold State.performUpdate
  split
  · exact h
  · rename_i hq
    have hq : u.account ∉ s.tally.quarantine := by simpa [State.quarantined] using hq
    dsimp only
    split
    · exact h.keepLine _ _ _ hq
    · rename_i hl _
      have hf := h.fetchRecord u.account .update hq fun hs => lineHolding_none hl (h.tally hs)
      unfold State.directUpdate
      split
      · rename_i t x hx
        rw [hx] at hf
        exact hf.writeRecord _ _
      · rename_i t hx
        rw [hx] at hf
        exact hf
    · rename_i hl _
      have hw := h.writeBack (lineOf u.account)
      have hq' : u.account ∉ (s.writeBack (lineOf u.account)).1.tally.quarantine := by rw [quarantine_writeBack]; exact hq
      unfold State.fillUpdate State.fill
      generalize hv : (s.writeBack (lineOf u.account)).1 = v at hw hq'
      have hf := hw.fetchRecord u.account .fill hq' fun hs => by
        rw [← hv]; exact lines_writeBack (lineHolding_none hl (h.tally hs))
      split
      · rename_i t x hx
        rw [hx] at hf
        exact hf.keepLine _ _ _ (by rw [fetchRecord_some hx]; exact hq')
      · rename_i t hx
        rw [hx] at hf
        exact hf

theorem goOn {r s : State} (h : r.Sound s) (x : Source) : r.Sound (s.goOn x) := h.keeps ((State.Keeps.refl s).goOn x)

theorem runBilling_false {s v : State} {src : Source} {c : Nat} (hv : s.runBilling src c = (v, false)) :
    v.billing.inFlight = s.billing.inFlight := by
  unfold State.runBilling at hv
  dsimp only at hv
  repeat' split at hv
  all_goals (simp only [Prod.mk.injEq, Bool.true_eq_false, and_false, and_true] at hv)
  all_goals (subst hv)
  · rfl
  · rfl
  · unfold State.reject; simp [State.changeCircuit]
  · unfold State.latchMiss State.hold State.changeCircuit
    repeat' split
    all_goals simp
  · rfl
  · exact (State.Keeps.hitEntry_circuits _ _).2
  · exact (State.Keeps.hitEntry_circuits _ _).2

theorem inFlight_goOn (v : State) (x : Source) : (v.goOn x).billing.inFlight = v.billing.inFlight := by
  unfold State.goOn; cases x <;> rfl

theorem passMark {r : State} (c : Nat) (n : Nat) : ∀ {s : State}, r.Sound s → s.isInFlight c = false → r.Sound (State.passMark c n s) := by
  induction n with
  | zero => intro s h _; exact h
  | succ n ih =>
    intro s h hf
    unfold State.passMark
    split
    · exact h
    · rename_i w _
      dsimp only
      have h1 : r.Sound ({ s with billing := { s.billing with waiters := s.billing.waiters.erase w } } : State) :=
        h.keeps ((State.Keeps.refl s).withRest _ _ _ _ _ _)
      have h2 := h1.keeps ((State.Keeps.refl _).runBilling w.source c hf)
      generalize hv : State.runBilling _ w.source c = v at h2 ⊢
      obtain ⟨v, b⟩ := v
      cases b with
      | true => exact h2
      | false =>
        refine ih (h2.goOn _) ?_
        unfold State.isInFlight at *
        rw [inFlight_goOn, runBilling_false hv]; exact hf

/-! Where the books did not balance before, nothing is to be shown of them. -/

theorem withBillingApart {r s : State} (h : r.Sound s) (hr : ¬ r.booksBalance) (b : BillingEngine) (hm : b.map = s.billing.map) :
    r.Sound { s with billing := b } :=
  ⟨fun p => by cases p <;> exact h.ports _, h.queue, h.mem, h.clock, fun y => absurd y hr,
    fun y => by have := h.map y; unfold BillingEngine.mapSingle at *; dsimp only; rw [hm]; exact this, h.acc, h.tally, h.period⟩

theorem runBillingApart {r s : State} (h : r.Sound s) (hr : ¬ r.booksBalance) (src : Source) (c : Nat) : r.Sound (s.runBilling src c).1 := by
  unfold State.runBilling
  dsimp only
  repeat' split
  · exact h
  · exact h
  · unfold State.reject
    dsimp only
    refine keeps ?_ ((State.Keeps.refl _).post _ _)
    exact h.withBillingApart hr _ rfl
  · refine keeps ?_ ((State.Keeps.refl _).latchMiss _ _ _)
    exact h.withBillingApart hr _ rfl
  · exact h
  · exact (h.keeps ((State.Keeps.refl _).hitEntry _)).withBillingApart hr _ rfl
  · exact (h.keeps ((State.Keeps.refl _).hitEntry _)).withBillingApart hr _ rfl
  · rename_i q _ _ _ _ n _ _ e _ _ _
    have h1 := (h.keeps ((State.Keeps.refl _).hitEntry n))
    generalize s.hitEntry n = u at h1
    unfold State.sendUpdate
    dsimp only
    exact ⟨fun p => by cases p <;> exact h1.ports _, h1.queue, h1.mem, h1.clock, fun y => absurd y hr, h1.map, h1.acc, h1.tally, h1.period⟩

theorem passMarkApart {r : State} (hr : ¬ r.booksBalance) (c : Nat) (n : Nat) : ∀ {s : State}, r.Sound s → r.Sound (State.passMark c n s) := by
  induction n with
  | zero => intro s h; exact h
  | succ n ih =>
    intro s h
    unfold State.passMark
    split
    · exact h
    · rename_i w _
      dsimp only
      have h1 : r.Sound ({ s with billing := { s.billing with waiters := s.billing.waiters.erase w } } : State) :=
        h.keeps ((State.Keeps.refl s).withRest _ _ _ _ _ _)
      have h2 := h1.runBillingApart hr w.source c
      split
      · rename_i v hv; rw [hv] at h2; exact h2
      · rename_i v hv; rw [hv] at h2; exact ih (h2.goOn _)

theorem credit_balanced (q : Circuit) (b : Billing) (h : q.balanced) (hd : b.delta = b.reading - q.cursor) (st : CircuitState) (x y : Bool) :
    Circuit.balanced { q with state := st, implausible := x, straddled := y, credited := q.credited + b.delta.setWidth 64, cursor := b.reading } := by
  unfold Circuit.balanced at *
  dsimp only
  have e : q.credited + b.delta.setWidth 64 + q.rejected = (q.credited + q.rejected) + b.delta.setWidth 64 := by
    rw [BitVec.add_assoc, BitVec.add_comm (BitVec.setWidth 64 b.delta), ← BitVec.add_assoc]
  rw [e, BitVec.setWidth_add _ _ (by omega), h]
  have : (b.delta.setWidth 64).setWidth 32 = b.delta := by simp
  rw [this, hd]
  ring

theorem endBilling {r s : State} (h : r.Sound s) (src : Source) (o : UpdateOutcome) : r.Sound (s.endBilling src o) := by
  unfold State.endBilling
  split
  · exact h
  · rename_i b hb
    dsimp only
    have hmem := List.mem_of_find?_eq_some hb
    have hsrc : (b.source == src) = true := by simpa using List.find?_some hb
    refine goOn ?_ _
    by_cases hr : r.booksBalance
    · obtain ⟨h1, h2, h3⟩ := h.books hr
      generalize hu : ({ s with billing := { s.billing with inFlight := s.billing.inFlight.filter fun x => x.source != src } } : State) = u
      have hnot : u.isInFlight b.circuit = false := by
        rw [← hu]
        by_contra hc
        simp only [State.isInFlight, Bool.not_eq_false, List.any_eq_true, List.mem_filter, beq_iff_eq] at hc
        obtain ⟨x, ⟨hx, hxs⟩, hxc⟩ := hc
        have : x = b := List.inj_on_of_nodup_map h2 hx hmem hxc
        subst this
        simp at hsrc hxs; exact hxs hsrc
      have hub : u.booksBalance := by
        rw [← hu]
        refine ⟨h1, ?_, ?_⟩
        · exact (h2.sublist ((List.filter_sublist).map _))
        · intro x hx
          exact h3 x (List.mem_of_mem_filter hx)
      have hsu : r.Sound u := by
        refine h.trans ?_
        rw [← hu] at hub ⊢
        exact ⟨fun p => by cases p <;> exact id, id, id, id, fun _ => hub, id, id, id, id⟩
      have hfit : u.billingFits b := by rw [← hu]; exact h3 b hmem
      have hw : u.billing.waiters = s.billing.waiters := by rw [← hu]
      refine passMark b.circuit _ ?_ ?_
      · unfold State.applyOutcome
        split
        · exact hsu
        · rename_i hst
          have hst : b.stale = false := by simpa using hst
          split
          · refine hsu.trans ⟨fun p => by cases p <;> exact id, id, id, id, ?_, id, id, id, id⟩
            refine State.Keeps.books_changeCircuit hnot ?_ ?_
            · intro q hq hb'
              exact credit_balanced q b hb' (hfit hst q hq).2 _ _ _
            · intro _ _ _ hs; cases hs
          · exact hsu.keeps ((State.Keeps.refl _).hold _ _ hnot)
          · exact hsu.keeps ((State.Keeps.refl _).hold _ _ hnot)
      · unfold State.applyOutcome
        repeat' split
        all_goals exact hnot
    · refine passMarkApart hr _ _ ?_
      have h1 : r.Sound ({ s with billing := { s.billing with inFlight := s.billing.inFlight.filter fun x => x.source != src } } : State) :=
        h.withBillingApart hr _ rfl
      unfold State.applyOutcome
      repeat' split
      · exact h1
      all_goals exact h1.withBillingApart hr _ rfl

theorem withWork {r s : State} (h : r.Sound s) (w : List WorkOp) : r.Sound { s with tally := { s.tally with work := w } } :=
  h.keeps ((State.Keeps.refl s).withWork w)

theorem requeue {r s : State} (h : r.Sound s) (o : WorkOp) : r.Sound (s.requeue o) := h.withWork _

theorem performNext {r s : State} (h : r.Sound s) (f : WorkOp → Option (State → State))
    (hf : ∀ o g, f o = some g → ∀ t, r.Sound t → r.Sound (g t)) : r.Sound (s.performNext f) := by
  unfold State.performNext
  split
  · exact h
  · split
    · rename_i g hg
      exact hf _ g hg _ (h.withWork _)
    · exact h

theorem performAccountUpdate {r s : State} (h : r.Sound s) : r.Sound (performAccountUpdate s) := by
  refine h.performNext _ ?_
  intro o g hg t ht
  split at hg
  · cases hg; exact (ht.performUpdate _).endBilling _ _
  · cases hg

theorem statementOf {r s : State} (h : r.Sound s) (a : Nat) : r.Sound (s.statementOf a).1 := by
  unfold State.statementOf
  split
  · exact h
  · split
    · exact h
    · rename_i hq
      have hq : a ∉ s.tally.quarantine := by simpa [State.quarantined] using hq
      split
      · exact h
      · rename_i hl
        have hf := h.fetchRecord a .statement hq fun hs => lineHolding_none hl (h.tally hs)
        split
        · rename_i t x hx; rw [hx] at hf; exact hf
        · rename_i t hx; rw [hx] at hf; exact hf

theorem performStatement {r s : State} (h : r.Sound s) : r.Sound (performStatement s) := by
  refine h.performNext _ ?_
  intro o g hg t ht
  split at hg
  · cases hg; exact (ht.statementOf _).answer _ _
  · cases hg

theorem rewriteRecord {r s : State} (h : r.Sound s) (a : Nat) (x : AccountRecord) : r.Sound (s.rewriteRecord a x) := by
  unfold State.rewriteRecord
  dsimp only
  refine answer ?_ _ _
  have h1 := h.writeRecord a { x with period := BitVec.ofNat 8 s.period.number }
  generalize s.writeRecord a { x with period := BitVec.ofNat 8 s.period.number } = u at h1
  have hsub : ∀ v : State, (v.tally.lines = u.tally.lines ∨ ∃ y, v.tally.lines = u.tally.lines.set (lineOf a) (some ⟨false, a, y⟩)) →
      v.tally.quarantine = u.tally.quarantine → u.tally.sound → Tally.sound { v.tally with quarantine := v.tally.quarantine.filter fun z => z != a } := by
    intro v hl hq ⟨s1, s2, s3⟩
    refine ⟨?_, ?_, ?_⟩
    · intro n l hn
      dsimp only at hn ⊢
      rw [hq]
      rcases hl with hl | ⟨y, hl⟩
      · rw [hl] at hn
        have := s1 n l hn
        exact ⟨this.1, fun hm => this.2 (List.mem_of_mem_filter hm)⟩
      · rw [hl] at hn
        simp only [Table.used, Table.get_set] at hn
        split at hn
        · rename_i hj
          cases hg : u.tally.lines.get n with
          | none => simp [hg] at hn
          | some _ =>
            simp [hg] at hn
            rw [← hn]
            exact ⟨hj, by simp⟩
        · have := s1 n l hn
          exact ⟨this.1, fun hm => this.2 (List.mem_of_mem_filter hm)⟩
    · dsimp only; rw [hq]; exact s2.filter _
    · dsimp only; rw [hq]; exact (List.length_filter_le _ _).trans s3
  split
  · refine ⟨fun p => by cases p <;> exact h1.ports _, h1.queue, h1.mem, h1.clock, h1.books, h1.map, h1.acc, fun y => ?_, h1.period⟩
    exact hsub (u.setLine (lineOf a) (some ⟨false, a, { x with period := BitVec.ofNat 8 s.period.number }⟩)) (Or.inr ⟨_, rfl⟩) rfl (h1.tally y)
  · refine ⟨fun p => by cases p <;> exact h1.ports _, h1.queue, h1.mem, h1.clock, h1.books, h1.map, h1.acc, fun y => ?_, h1.period⟩
    exact hsub u (Or.inl rfl) rfl (h1.tally y)

theorem performRewrite {r s : State} (h : r.Sound s) : r.Sound (performRewrite s) := by
  refine h.performNext _ ?_
  intro o g hg t ht
  split at hg
  · cases hg; exact ht.rewriteRecord _ _
  · cases hg

theorem flushStep {r s : State} (h : r.Sound s) : r.Sound (flushStep s) := by
  refine h.performNext _ ?_
  intro o g hg t ht
  split at hg
  · cases hg
    dsimp only
    split
    · exact (ht.writeBack _).requeue _
    · exact (ht.writeBack _).answer _ _
  · cases hg

theorem invalidateDirect {r s : State} (h : r.Sound s) (n : Nat) : r.Sound (s.invalidateDirect n) := by
  unfold State.invalidateDirect
  repeat' split
  · exact h.setLine _ _ (fun _ _ hx => by cases hx)
  · exact h
  · exact h

theorem windowWriteBackStep {r s : State} (h : r.Sound s) : r.Sound (windowWriteBackStep s) := by
  refine h.performNext _ ?_
  intro o g hg t ht
  split at hg
  · cases hg; exact (ht.writeBack _).requeue _
  · cases hg
    dsimp only
    split
    · exact (ht.invalidateDirect _).requeue _
    · exact (ht.invalidateDirect _).answer _ _
  · cases hg

theorem softResetFlushStep {r s : State} (h : r.Sound s) : r.Sound (softResetFlushStep s) := by
  refine h.performNext _ ?_
  intro o g hg t ht
  split at hg
  · cases hg
    dsimp only
    have hw := ht.writeBack (n := by assumption)
    split
    · exact hw.requeue _
    · split
      · exact hw.answer _ _
      · exact (hw.withLoader _).answer _ _
  · cases hg

theorem noLines {r s : State} (h : r.Sound s) : r.Sound { s with tally := { s.tally with lines := Table.replicate 64 none } } := by
  refine h.withTally _ ?_
  rintro ⟨_, h2, h3⟩
  refine ⟨?_, h2, h3⟩
  intro n l hl
  simp only [Table.used, Table.get_replicate] at hl
  split at hl <;> cases hl

theorem initEnds {r s : State} (h : r.Sound s) (n : Nat) : r.Sound (s.initEnds n) := by
  unfold State.initEnds
  refine answer ?_ _ _
  refine h.withTally _ ?_
  rintro ⟨h1, _, _⟩
  exact ⟨fun n l hl => ⟨(h1 n l hl).1, by simp⟩, List.nodup_nil, Nat.zero_le _⟩

theorem initAccount {r s : State} (h : r.Sound s) (n w : Nat) : r.Sound (s.initAccount n w) := by
  unfold State.initAccount
  dsimp only
  split
  · exact h.initEnds _
  · split
    · exact (h.writeRecord _ _).requeue _
    · exact (h.writeRecord _ _).initEnds _

theorem initTallyStep {r s : State} (h : r.Sound s) : r.Sound (initTallyStep s) := by
  refine h.performNext _ ?_
  intro o g hg t ht
  split at hg
  · cases hg
    refine initAccount ?_ _ _
    split
    · exact ht
    · exact ht.noLines
  · cases hg

theorem tallySoftReset {r s : State} (h : r.Sound s) : r.Sound s.tallySoftReset := by
  unfold State.tallySoftReset
  dsimp only
  have h1 : r.Sound (State.forEach 64 (fun s n => (s.writeBack n).1) s) := forEach (fun s k h => h.writeBack k) _ h
  generalize State.forEach 64 (fun s n => (s.writeBack n).1) s = u at h1
  refine h1.withTally _ ?_
  rintro ⟨_, h2, h3⟩
  refine ⟨?_, h2, h3⟩
  intro n l hl
  simp only [Table.used, Table.get_replicate] at hl
  split at hl <;> cases hl

theorem blocksSoftReset {r s : State} (h : r.Sound s) : r.Sound s.blocksSoftReset := by
  unfold State.blocksSoftReset
  dsimp only
  have h1 := h.tallySoftReset
  generalize s.tallySoftReset = u at h1
  refine h1.trans ⟨?_, ?_, id, id, ?_, ?_, ?_, id, id⟩
  · intro p _
    cases p <;> exact ⟨Nat.zero_le _, Nat.zero_le _⟩
  · intro _; exact ⟨Nat.zero_le _, Nat.zero_le _⟩
  · rintro ⟨hb, _, _⟩
    exact ⟨hb, List.nodup_nil, fun b hb => by cases hb⟩
  · exact id
  · unfold Deliveries.accounted
    intro hc
    rw [← hc]
    dsimp only
    congr 2
    simp only [Table.map, List.countP_map]
    rfl

theorem softReset {r s : State} (h : r.Sound s) : r.Sound (softReset s) := by
  unfold Sys2Proof.Machine.softReset
  split
  · exact h.blocksSoftReset.keeps ((State.Keeps.refl _).post _ _)
  · exact h

theorem isIdle_tick (x : Channel) : Channel.isIdle { x with state := x.state.tick } = x.isIdle := by
  cases x with
  | mk rep q => cases q <;> rfl

theorem tick {r s : State} (h : r.Sound s) : r.Sound s.tick := by
  refine h.trans ⟨fun p => by cases p <;> exact id, ?_, id, ?_, id, id, ?_, id, id⟩
  · refine bounded_of_eq ?_
    show s.line.tick.queue = _
    unfold Line.tick; split <;> rfl
  · show _ → s.clock.tick.inRange
    unfold Clock.tick; split <;> exact id
  · unfold Deliveries.accounted
    intro hc
    refine Eq.trans ?_ hc
    show ((s.deliveries.channels.map fun c => { c with state := c.state.tick }).cells.countP fun c => !c.isIdle) + s.deliveries.log.length + s.deliveries.taken = _
    congr 2
    simp only [Table.map, List.countP_map]
    refine List.countP_congr fun x _ => ?_
    simp only [Function.comp, isIdle_tick]

theorem clockIncrement {r s : State} (h : r.Sound s) : r.Sound (clockIncrement s) := by
  unfold Sys2Proof.Machine.clockIncrement
  split
  · split
    · refine keeps ?_ ((State.Keeps.refl _).post _ _)
      exact h.withClock _ id
    · rename_i he
      refine h.withClock _ ?_
      rintro ⟨h1, h2⟩
      unfold Clock.advance
      dsimp only
      split
      · rename_i hlt
        exact ⟨h1, hlt⟩
      · rename_i hlt
        refine ⟨?_, Nat.zero_le _⟩
        show s.clock.day + 1 ≤ Config.lastDay
        have : ¬ (s.clock.day = Config.lastDay ∧ s.clock.second = Config.lastSecond) := by
          simpa [Clock.atEnd] using he
        omega
  · exact h

theorem sweepDue {r s : State} (h : r.Sound s) : r.Sound (sweepDue s) := by
  unfold Sys2Proof.Machine.sweepDue
  dsimp only
  split
  · have h1 : r.Sound ({ s with clock := { s.clock with elapsed := s.clock.elapsed - s.clock.interval } } : State) := h.withClock _ id
    split
    · exact h1.keeps ((State.Keeps.refl _).startSweep _)
    · exact h1
  · exact h

theorem wholeSecond {r s : State} (h : r.Sound s) : r.Sound (wholeSecond s) := by
  unfold Sys2Proof.Machine.wholeSecond
  split
  · exact h.trans ⟨fun p => by cases p <;> exact id, id, id, id, id, id, id, id, id⟩
  · exact h

theorem finish {r s : State} (h : r.Sound s) : r.Sound s.finish := h.keeps (State.Keeps.refl s).finish

theorem crankTimerExpiry {r s : State} (h : r.Sound s) (i : Nat) : r.Sound (crankTimerExpiry s i) := by
  refine h.keeps ?_
  unfold Sys2Proof.Machine.crankTimerExpiry
  repeat' split
  all_goals first | exact State.Keeps.refl s | exact ((State.Keeps.refl s).changeSet _ _).offerAwaited _ _

theorem crankRestExpiry {r s : State} (h : r.Sound s) (i : Nat) : r.Sound (crankRestExpiry s i) := by
  refine h.keeps ?_
  unfold Sys2Proof.Machine.crankRestExpiry
  repeat' split
  all_goals first | exact State.Keeps.refl s | exact ((State.Keeps.refl s).changeSet _ _).offerAwaited _ _ | exact (State.Keeps.refl s).faultSet _ _

theorem warmUpExpiry {r s : State} (h : r.Sound s) (i : Nat) : r.Sound (warmUpExpiry s i) := by
  refine h.keeps ?_
  unfold Sys2Proof.Machine.warmUpExpiry
  split
  · exact (State.Keeps.refl s).enterSet _ _
  · exact State.Keeps.refl s

theorem coolDownExpiry {r s : State} (h : r.Sound s) (i : Nat) : r.Sound (coolDownExpiry s i) := by
  refine h.keeps ?_
  unfold Sys2Proof.Machine.coolDownExpiry
  split
  · exact ((State.Keeps.refl s).changeSet _ _).offerAwaited _ _
  · exact State.Keeps.refl s

theorem prepareExpiry {r s : State} (h : r.Sound s) (i : Nat) : r.Sound (prepareExpiry s i) := by
  refine h.keeps ?_
  unfold Sys2Proof.Machine.prepareExpiry
  repeat' split
  all_goals first | exact State.Keeps.refl s | exact (State.Keeps.refl s).endChangeover _ _ _ _

theorem confirmExpiry {r s : State} (h : r.Sound s) (i : Nat) : r.Sound (confirmExpiry s i) := by
  refine h.keeps ?_
  unfold Sys2Proof.Machine.confirmExpiry
  repeat' split
  all_goals first | exact State.Keeps.refl s | exact (State.Keeps.refl s).confirmExpired _ _

theorem deadTimeExpiry {r s : State} (h : r.Sound s) (i : Nat) : r.Sound (deadTimeExpiry s i) := by
  refine h.keeps ?_
  unfold Sys2Proof.Machine.deadTimeExpiry
  repeat' split
  all_goals first | exact State.Keeps.refl s | exact (State.Keeps.refl s).enterClose _ _

end State.Sound
end Sys2Proof.Machine
end

