-- ==== Sys2Proof/Laws/Work.lean ====
section
/-! SUPPORT. The operation of the work list performed next, and changes of one record of a block, once each. -/

namespace Sys2Proof.Machine

/-! ## The work list -/

/-- R165, R188: an operation that `Performs` names is the one taken, and the list is left without it. -/
theorem takeFront_of_performs {work : List WorkOp} {o : WorkOp} {rest : List WorkOp} (h : Performs work o rest)
    (ho : o.isUpdate = false) : takeFront work = some (o, rest) := by
  obtain ⟨passed, after, rfl, rfl, h⟩ := h
  have hidx : (passed ++ o :: after).findIdx
      (fun x => !((passed ++ o :: after).any WorkOp.isInit && x.isUpdate)) = passed.length := by
    rw [List.findIdx_eq (by simp)]
    refine ⟨by simp [ho], fun j hj => ?_⟩
    rcases h with rfl | ⟨hu, y, hy, hi⟩
    · simp at hj
    · obtain ⟨u, hu⟩ := hu _ (List.getElem_mem (show j < passed.length from hj))
      have hany : (passed ++ o :: after).any WorkOp.isInit = true := by
        rw [List.any_eq_true]; exact ⟨y, List.mem_append_right _ hy, hi⟩
      rw [List.getElem_append_left hj, hany, hu]; rfl
  unfold takeFront
  dsimp only
  rw [hidx, List.eraseIdx_append_of_length_le (Nat.le_refl _)]
  simp

/-- R165: what the step that performs operation `o` does. -/
theorem State.performNext_of_performs {s : State} {o : WorkOp} {rest : List WorkOp} (h : Performs s.tally.work o rest)
    (ho : o.isUpdate = false) (f : WorkOp → Option (State → State)) :
    s.performNext f = (f o).elim s fun g => g { s with tally := { s.tally with work := rest } } := by
  cases hf : f o <;> simp only [State.performNext, takeFront_of_performs h ho, hf] <;> rfl

/-! ## Changes of one record -/

theorem State.sets_get_of_set {s : State} {i : Nat} {r : SetRecord} (h : s.set i = some r) :
    s.sets.get i = some (some r) := Option.join_eq_some_iff.1 h

theorem State.changeSet_of_set {s : State} {i : Nat} {r : SetRecord} (h : s.set i = some r) (f : SetRecord → SetRecord) :
    s.changeSet i f = { s with sets := s.sets.set i (some (f r)) } := by
  unfold State.changeSet
  rw [Table.modify_of_get _ _ (sets_get_of_set h)]
  rfl

theorem State.set_changeSet_of_set {s : State} {i : Nat} {r : SetRecord} (h : s.set i = some r)
    (f : SetRecord → SetRecord) : (s.changeSet i f).set i = some (f r) := by
  rw [changeSet_of_set h]
  exact Option.join_eq_some_iff.2 (Table.get_set_self _ _ (sets_get_of_set h))

theorem State.changeStage_of_stage {s : State} {k : Nat} {x : Stage} (h : s.stage k = some x) (f : Stage → Stage) :
    s.changeStage k f = { s with stages := s.stages.set k (f x) } := by
  unfold State.changeStage
  rw [Table.modify_of_get _ _ h]

theorem State.changeChannel_of_channel {s : State} {c : Nat} {x : Channel} (h : s.channel c = some x)
    (f : Channel → Channel) :
    s.changeChannel c f = { s with deliveries := { s.deliveries with channels := s.deliveries.channels.set c (f x) } } := by
  unfold State.changeChannel
  rw [Table.modify_of_get _ _ h]

/-- R92, R101: the channel whose delivery is open to the set is the one the reports of the set reach. -/
theorem State.channelTo_of_openTo {s : State} {i c : Nat} {y : Channel} {d : Delivery} (h : OpenTo s i c y d) :
    s.channelTo i = some c := by
  unfold State.channelTo
  rw [Table.find_eq_some]
  refine ⟨⟨y, h.channel, by simp [h.isOpen, h.target]⟩, fun j hj z hz => ?_⟩
  cases he : z.open_ with
  | none => simp
  | some e => simpa using h.first j hj z e hz he

end Sys2Proof.Machine
end

