-- ==== Sys2Proof/Tests/Slice0.lean ====
section
/-! SUPPORT. Small tests: ill-formed commands, the spec's worked values, one step of each command, and a state that meets
the hypotheses of each statement. A `mutual` block stands for nothing but order: Lean elaborates its theorems one after
another, so that few threads wait at once. -/

namespace Sys2Proof.Machine.Tests

/-! ## WellFormed: one ill-formed command for each check -/

/-- One ill-formed command for each check, and some well-formed ones. -/
theorem test_illFormed :
    (Instr.wellFormed (.hardReset (some ⟨true, 55295, [1, 2]⟩)) = false) ∧
    (Instr.wellFormed (.hardReset (some ⟨false, 65540, [1]⟩)) = false) ∧
    (Instr.wellFormed (.crankTimerExpiry 12) = false) ∧
    (Instr.wellFormed (.crankRestExpiry 12) = false) ∧
    (Instr.wellFormed (.warmUpExpiry 12) = false) ∧
    (Instr.wellFormed (.coolDownExpiry 12) = false) ∧
    (Instr.wellFormed (.settleExpiry 3) = false) ∧
    (Instr.wellFormed (.prepareExpiry 8) = false) ∧
    (Instr.wellFormed (.confirmExpiry 8) = false) ∧
    (Instr.wellFormed (.deadTimeExpiry 8) = false) ∧
    (Instr.wellFormed (.frameComplete .yard [0x5A, 2, 1, 0, 0]) = false) ∧
    (Instr.wellFormed (.frameGap .yard [0x5A, 2, 1, 0, 0, 0]) = false) ∧
    (Instr.wellFormed (.frameLengthBad .office [0x5A, 2]) = false) ∧
    (Instr.wellFormed (.replyAccepted [0xB6, 0, 1, 0x81]) = false) ∧
    (Instr.wellFormed (.frameOutsideTransaction []) = false) ∧
    (([.hardReset (some ⟨true, 55294, [1, 2]⟩), .settleExpiry 2, .frameGap .yard [0x5A], .crankTimerExpiry 11,
        .frameComplete .yard [0x12, 0x5A, 2, 1, 0, 0, 0], .frameLengthBad .office [0x5A, 123]] : List Instr).all
        Instr.wellFormed = true) := by
  refine ⟨?_, ?_, ?_, ?_, ?_, ?_, ?_, ?_, ?_, ?_, ?_, ?_, ?_, ?_, ?_, ?_⟩ <;> decide +kernel

/-! ## Helpers -/

/-- READY, with both banks of tally memory and plan memory fitted; all else as after reset. -/
def start : State := { State.reset with
  loader.ready := true, tally.bank1 := true, planFitted := true, bank0Fitted := true, bank1Fitted := true }

/-- A request, with tag 7, taken on a port and not judged. -/
def asking (s : State) (p : Port) (kind : Byte) (payload : List Byte) : State :=
  s.withPort p fun q => { q with inProgress := some ⟨⟨kind, 7, payload⟩, false⟩ }

/-- What `asking` gives is offered: the witness of that hypothesis of every statement about a request. -/
theorem test_witness_offered (s : State) (p : Port) (kind : Byte) (payload : List Byte) (hr : s.loader.ready = true) :
    Offered (asking s p kind payload) p kind 7 payload := by
  cases p <;> exact ⟨rfl, hr⟩

theorem test_witness_offered_start (p : Port) (kind : Byte) (payload : List Byte) :
    Offered (asking start p kind payload) p kind 7 payload :=
  test_witness_offered start p kind payload rfl

/-- The next state of a command. -/
def after (c : Instr) (s : State) : State :=
  match exec c s with
  | .next t => t
  | .fault _ => s
  | .refused _ => s

/-- Kind and payload of the frame that a port begins to send, the status byte left out. -/
def sent (s : State) (p : Port) : Option (Byte × List Byte) := (s.port p).tx.map fun x => (x.frame.kind, x.frame.payload.tail)

/-- What requests of a kind are answered. -/
def answers (c : Instr) (s : State) (p : Port) (kind : Byte) (payloads : List (List Byte)) :
    List (Option (Byte × List Byte)) :=
  payloads.map fun bs => sent (after c (asking s p kind bs)) p

/-- A refusal: its code and field. -/
def no (code field : Byte) : Option (Byte × List Byte) := some (0x82, [code, field, 0xFF])

/-- DONE with data. -/
def yes (data : List Byte) : Option (Byte × List Byte) := some (0x80, data)

/-- A lease of a set. -/
def lease : Lease := ⟨1, 2, 3000, 9800, 300, 120, 300, .zero, .zero, .zero, none, 0, 0⟩

/-- A leased set in a state, last reported in an engine condition at a level. -/
def hired (q : SetState) (e : Engine) (level : Nat) : SetRecord :=
  { SetRecord.fresh with state := q, report := some ⟨e, 0, level, 0, 0, .zero⟩, lease := some lease }

/-- Sets 0 (ONLINE) and 1 (STOPPED), bowser 0, board 0 and meter 0 of stage 0, all ANSWERING; stage 0 FED on A by set 0. -/
def site : State := { start with
  line := { start.line with
    stations :=
      ((((start.line.stations.set 0 (some ⟨5, .set, 0, 0, .answering, 0, none, none⟩)).set 1
        (some ⟨6, .set, 1, 0, .answering, 0, none, none⟩)).set 2
        (some ⟨7, .bowser, 0, 0, .answering, 0, none, none⟩)).set 3
        (some ⟨8, .board, 0, 0, .answering, 0, none, none⟩)).set 4
        (some ⟨9, .meter, 0, 0, .answering, 0, none, none⟩) }
  sets := (start.sets.set 0 (some (hired .online .running 5000))).set 1 (some (hired .stopped .off 5000))
  stages := start.stages.set 0 ⟨some 0, some 1, .fed .a, false, 3, some ⟨true, false, true, false, 900⟩, false, false⟩ }

/-- `site` with a record of set 0. -/
def siteSet (r : SetRecord) : State := { site with sets := site.sets.set 0 (some r) }

/-- `site` with a state of stage 0. -/
def siteStage (q : StageState) : State := { site with stages := site.stages.modify 0 fun x => { x with state := q } }

/-- A changeover of stage 0 from A to B in a step. -/
def change (step : ChangeStep) (board : BoardOrder) (timer : Option StageTimer) : StageState :=
  .changing ⟨.requested, some .a, .b, step, none, [], board, false, timer, .zero⟩

/-- A delivery to set 0. -/
def ticket : Delivery := ⟨77, 9, 0, 3000, 100, 0, 5000, 0, 0, false, false, false, none, .zero⟩

/-- `site` with a state of channel 0. -/
def siteChannel (q : ChannelState) : State := { site with
  deliveries := { site.deliveries with channels := site.deliveries.channels.set 0 ⟨some ⟨false, 100⟩, q⟩ } }

/-- `site` with a transaction listening. -/
def listening (job : Job) (c : StationClass) (object address : Nat) : State := { site with
  line := { site.line with current := some ⟨job, c, object, address, .listening, false⟩ } }

/-- Circuit 0 of the site has read 1,000 and 1,600; entry 0 of the map gives it account 5. -/
def metered : State := { site with
  billing := { site.billing with
    circuits := site.billing.circuits.set 0 ⟨0, .current, false, false, 1000, 1600, .zero, 1000, 0, 0⟩
    map := site.billing.map.set 0 (some ⟨0, 5, true, false⟩) } }

/-- Window 0 is for accounts 0 to 3, window 1 for all; set window 5 for set 0. -/
def windowed : Windows :=
  ⟨((start.windows.account.set 0 ⟨true, 0, 3, true, true, true, true, .direct, 1⟩).set 1
      ⟨true, 0, 1023, true, true, true, false, .held, 2⟩),
    start.windows.sets.set 1 ⟨true, 0, 0, true, true, false, true⟩⟩

/-- A command of the queue. -/
def queued (serial : Nat) (o : Order) (r : Rank) (committed : Bool) : Command := ⟨serial, o, 0, r, 0, committed, false⟩

/-- `site` with commands queued and waiting. -/
def busyLine (queue waiting : List Command) : State := { site with line.queue := queue, line.waiting := waiting }

/-- `site` with one PUMP RUN, serial 4, chosen and not begun. -/
def choosing : State := { busyLine [queued 4 .pumpRun .routine false] [] with
  line.current := some ⟨.command 4 .pumpRun, .bowser, 0, 7, .chosen, false⟩ }

/-- `site` with the bowser LOST. -/
def bowserLost : State := { site with
  line.stations := site.line.stations.set 2 (some ⟨7, .bowser, 0, 0, .lost, 6, none, none⟩) }

/-- A plan section of a kind, accepted. -/
def planSection (kind : Byte) (data : List Byte) : List Byte :=
  let counted := kind :: 1 :: (be 2 data.length ++ data)
  counted ++ checkBytes counted

/-- The bytes of an IDENTIFY frame with tag 7. -/
def identifyBytes : List Byte := Frame.bytes ⟨0x01, 7, []⟩

/-! ## Bytes: the spec's worked values -/

/-- R3. -/
theorem test_check : crc16 [0x31, 0x32, 0x33, 0x34, 0x35, 0x36, 0x37, 0x38, 0x39] = 0x29B1#16 := by decide +kernel

/-- R178: the check code repairs each single bit of a word, and reports two. -/
theorem test_checkCode :
    readWord (storedWord 0x0123456789ABCDEF#64) = .good 0x0123456789ABCDEF#64 ∧
      ((List.range 8).all fun k =>
        readWord ((storedWord 0x0123456789ABCDEF#64).modify 3 fun b => b ^^^ (1#8 <<< k)) ==
          .corrected 0x0123456789ABCDEF#64) = true ∧
      readWord ((storedWord 0x0123456789ABCDEF#64).modify 3 fun b => b ^^^ 3#8) = .uncorrectable := by
  decide +kernel

/-! ## One step of each request -/

mutual
/-- IDENTIFY, RESET PART, WRITE PLAN; a kind that is no request. -/
theorem test_partRequests :
    (answers (.identify .yard 0) start .yard 0x01 [[], [1]] =
        [yes [0x41, 0xB7, 0x01, 0xCC, 2, 0, 0, 1, 0, 3, 3, 3, 3, 3, 3, 3], no 1 0]) ∧
    ((after (.resetPart .office) (asking start .office 0x02 [])).tally.work = [.softFlush 0] ∧
        answers (.resetPart .office) (siteChannel (.armed ticket)) .office 0x02 [[]] = [no 6 0] ∧
        answers (.resetPart .yard) start .yard 0x02 [[]] = [no 3 0]) ∧
    (answers (.writePlan .office) start .office 0x03
          [[1, 1, 0, 2, 0, 0, 2, 0x12, 0x34], [1, 1, 0, 2, 0, 0, 1, 0x12], [0, 1, 0, 2, 0, 0, 0], [8, 1, 0, 2, 0, 0, 0],
            [1, 4, 0, 2, 0, 0, 0], [1, 1, 0, 3, 0, 0, 0], [1, 1, 0, 2, 0, 0, 3, 0, 0, 0], [1, 1, 0, 2, 0, 1, 1, 0]] =
        [yes [1, 0, 8, 1], yes [0, 0, 1], no 5 1, no 5 1, no 5 2, no 5 3, no 5 5, no 6 4]) ∧
    (answers (.unknownRequest .yard) start .yard 0x04 [[1, 2]] = [no 2 0]) := by
  refine ⟨?_, ?_, ?_, ?_⟩ <;> decide +kernel

/-- The requests of 02. -/
theorem test_clockRequests :
    (answers (.setClock .office) start .office 0x10
          [[0, 0x01, 0x51, 0x7F], [255, 0x01, 0x51, 0x80], [1, 2], [1, 2, 3, 4, 5]] =
        [yes [], no 5 2, no 1 2, no 1 0]) ∧
    (answers (.startClock .office) start .office 0x11 [[]] = [yes []] ∧
        answers (.startClock .office) { start with clock.state := .ended } .office 0x11 [[]] = [no 6 0]) ∧
    (answers (.stopClock .office) { start with clock.state := .running } .office 0x12 [[]] = [yes []] ∧
        answers (.stopClock .office) start .office 0x12 [[]] = [no 6 0]) ∧
    (answers (.readClock .yard) { start with clock.state := .running, clock.elapsed := 40 } .yard 0x13 [[]] =
        [yes [2, 0, 0, 0, 0, 1, 0x2C, 0, 3, 0xD0, 0x90, 1, 4, 0]]) ∧
    (answers (.writeTariff .office) start .office 0x14
          [[2, 0, 0, 0, 1, 0, 0, 5, 3], [1, 1, 0x51, 0x80, 0], [2, 0, 0, 5, 1, 0, 0, 5, 1], [1, 0, 0, 0, 4], [9], [1, 0], []] =
        [yes [], no 5 2, no 5 4, no 5 3, no 5 1, no 1 1, no 1 1]) ∧
    (answers (.readTariff .yard) { start with clock.tariff := [⟨100, 2⟩, ⟨200, 1⟩] } .yard 0x15 [[]] =
        [yes [2, 0, 0, 100, 2, 0, 0, 200, 1, 1]]) ∧
    (answers (.setSweep .office) start .office 0x45
          [[0, 60, 0, 0, 3, 0xE8], [3, 0x84, 0, 0x3D, 9, 0], [0, 59, 0, 0, 3, 0xE8], [3, 0x85, 0, 0, 3, 0xE8],
            [0, 60, 0, 0, 3, 0xE7], [0, 60, 0, 0x3D, 9, 1]] =
        [yes [], yes [], no 5 1, no 5 1, no 5 2, no 5 2]) := by
  refine ⟨?_, ?_, ?_, ?_, ?_, ?_, ?_⟩ <;> decide +kernel

/-- The requests of 03. -/
theorem test_windowRequests :
    (answers (.writeWindow .office) start .office 0x18
          [[5, 1, 0, 11, 0, 15, 7, 1, 0, 0], [6, 1, 0, 0, 0, 0, 0, 0, 0, 0], [0, 2, 0, 0, 0, 0, 0, 0, 0, 0],
            [4, 1, 0, 12, 0, 0, 0, 0, 0, 0], [4, 1, 0, 0, 0, 16, 0, 0, 0, 0], [0, 1, 0, 0, 0, 0, 8, 0, 0, 0],
            [0, 1, 0, 0, 0, 0, 0, 2, 0, 0], [4, 1, 0, 0, 0, 0, 0, 0, 1, 0], [0, 1, 0, 0, 0, 0, 0, 0, 0, 4]] =
        [yes [], no 5 1, no 5 2, no 5 3, no 5 4, no 5 5, no 5 6, no 5 7, no 5 8] ∧
      (after (.writeWindow .office) (asking start .office 0x18 [3, 1, 3, 0xFF, 3, 0xFF, 7, 1, 2, 3])).tally.work =
        [.windowWriteBack .writeBack 0]) ∧
    (answers (.readWindow .yard) start .yard 0x19 [[3], [5], [6]] =
        [yes [3, 0, 0, 0, 0, 0, 0, 0, 1, 0], yes [5, 0, 0, 0, 0, 0, 0, 0, 0, 0], no 5 1]) := by
  refine ⟨?_, ?_⟩ <;> decide +kernel

/-- The requests of 04. -/
theorem test_stationRequests :
    (answers (.enrolStation .yard) site .yard 0x20
          [[62, 0, 11, 0], [0, 0, 0, 0], [63, 0, 2, 0], [1, 4, 0, 0], [1, 1, 3, 0], [1, 3, 11, 8], [1, 0, 2, 1], [5, 0, 2, 0],
            [1, 0, 0, 0]] =
        [yes [5], no 5 1, no 5 1, no 5 2, no 5 3, no 5 4, no 5 4, no 0x0B 1, no 0x0B 3]) ∧
    (answers (.enrolStation .yard) (siteStage (change .preparing .none none)) .yard 0x20 [[1, 3, 1, 0]] = [no 6 4] ∧
        answers (.enrolStation .yard)
          { start with line.stations := Table.replicate 40 (some ⟨1, .set, 0, 0, .unknown, 0, none, none⟩) }
          .yard 0x20 [[2, 0, 1, 0]] = [no 8 0]) ∧
    (answers (.removeStation .yard) site .yard 0x21 [[9], [5], [1], [0], [63]] =
        [yes [], no 6 1, no 0x0A 1, no 0x0A 1, no 0x0A 1]) ∧
    (answers (.readStation .office) site .office 0x22 [[9], [0], [63], [1]] =
        [yes [4, 9, 3, 0, 0, 1, 0, 0, 0, 0, 0, 0, 0, 0], yes [0, 5, 0, 0, 0, 0, 0], no 5 1, no 0x0A 1]) := by
  refine ⟨?_, ?_, ?_, ?_⟩ <;> decide +kernel

/-- The requests of 05. -/
theorem test_setRequests :
    (answers (.leaseSet .office) (siteSet { SetRecord.fresh with state := .stopped }) .office 0x28
          [[0, 0, 1, 0, 0, 0, 2, 0, 1, 0x25, 0x1C, 0, 100, 0, 30, 0, 60], [12, 0, 1, 0, 0, 0, 2, 0, 1, 0x27, 0x10, 0, 100, 0, 0, 0, 0],
            [2, 0, 1, 0, 0, 0, 2, 0, 1, 0x27, 0x10, 0, 100, 0, 0, 0, 0], [1, 0, 1, 0, 0, 0, 2, 0, 1, 0x27, 0x10, 0, 100, 0, 0, 0, 0],
            [0, 0, 1, 0, 0, 0, 2, 0, 0, 0x27, 0x10, 0, 100, 0, 0, 0, 0], [0, 0, 1, 0, 0, 0, 2, 0, 1, 0x25, 0x1B, 0, 100, 0, 0, 0, 0],
            [0, 0, 1, 0, 0, 0, 2, 0, 1, 0x27, 0x10, 0, 99, 0, 0, 0, 0], [0, 0, 1, 0, 0, 0, 2, 0, 1, 0x27, 0x10, 0, 100, 0, 29, 0, 0],
            [0, 0, 1, 0, 0, 0, 2, 0, 1, 0x27, 0x10, 0, 100, 0, 0, 3, 0x85]] =
        [yes [], no 5 1, no 0x0A 1, no 0x0B 1, no 5 4, no 5 5, no 5 6, no 5 7, no 5 8]) ∧
    (answers (.releaseSet .office) { site with stages := start.stages } .office 0x29 [[1], [0], [2], [12]] =
        [yes [], no 6 1, no 0x0A 1, no 5 1] ∧
        answers (.releaseSet .office) site .office 0x29 [[1]] = [no 6 1]) ∧
    (answers (.startSet .yard) site .yard 0x2A [[1], [0], [2], [12]] = [yes [], no 6 1, no 0x0A 1, no 5 1] ∧
        (after (.startSet .yard) (asking site .yard 0x2A [1])).setStateOf 1 = some .cranking) ∧
    (answers (.stopSet .yard) { site with stages := start.stages } .yard 0x2B [[0], [1], [2]] =
        [yes [], no 6 1, no 0x0A 1] ∧
        answers (.stopSet .yard) site .yard 0x2B [[0]] = [no 6 1]) ∧
    (answers (.clearFault .yard) { siteSet (hired (.faulted .noStart) .off 0) with stages := start.stages } .yard 0x2C
          [[0], [1], [12]] = [yes [], no 6 1, no 5 1]) ∧
    (answers (.ackAlarms .yard) site .yard 0x2D [[0], [2], [12]] = [yes [0], no 0x0A 1, no 5 1]) ∧
    (answers (.setMarks .yard) site .yard 0x2E
          [[0, 0, 1, 0, 2, 0, 3, 0x26, 0x48], [0, 0, 1, 0, 1, 0, 3, 0, 4], [0, 0, 1, 0, 2, 0, 2, 0, 4], [0, 0, 1, 0, 2, 0, 3, 0, 3],
            [0, 0, 1, 0, 2, 0, 3, 0x26, 0x49]] =
        [yes [], no 5 3, no 5 4, no 5 5, no 5 5]) ∧
    (((answers (.readSet .office) site .office 0x2F [[0]]).map fun x => x.map fun y => (y.1, y.2.length, y.2.take 4)) =
        [some (0x80, 97, [0, 4, 0, 0])] ∧
        answers (.readSet .office) site .office 0x2F [[2], [12]] = [no 0x0A 1, no 5 1]) := by
  refine ⟨?_, ?_, ?_, ?_, ?_, ?_, ?_, ?_⟩ <;> decide +kernel

/-- The requests of 06. -/
theorem test_deliveryRequests :
    (answers (.openDelivery .yard) site .yard 0x30
          [[0, 0, 0, 0, 77, 0, 9, 0, 0x26, 0x48], [3, 0, 0, 0, 77, 0, 9, 0, 0, 1], [0, 0, 0, 0, 77, 0, 9, 12, 0, 1],
            [1, 0, 0, 0, 77, 0, 9, 0, 0, 1], [0, 0, 0, 0, 77, 0, 9, 2, 0, 1], [0, 0, 0, 0, 77, 0, 9, 0, 0, 0],
            [0, 0, 0, 0, 77, 0, 9, 0, 0x26, 0x49]] =
        [yes [], no 5 1, no 5 4, no 0x0A 1, no 0x0A 4, no 5 5, no 5 5] ∧
        answers (.openDelivery .yard) { site with loader.resetDue := true } .yard 0x30
          [[0, 0, 0, 0, 77, 0, 9, 0, 0x26, 0x48], [3, 0, 0, 0, 77, 0, 9, 0, 0, 1]] = [no 6 0, no 6 0]) ∧
    (answers (.holdDelivery .yard) (siteChannel (.flowing ticket)) .yard 0x31 [[0], [1], [3]] =
        [yes [], no 6 1, no 5 1]) ∧
    (answers (.resumeDelivery .yard) (siteChannel (.halted ticket .hold)) .yard 0x32 [[0], [1], [3]] =
        [yes [], no 6 1, no 5 1]) ∧
    (answers (.finishDelivery .yard) (siteChannel (.flowing ticket)) .yard 0x33 [[0], [1], [3]] =
        [yes [], no 6 1, no 5 1]) ∧
    (answers (.cancelDelivery .yard) (siteChannel (.armed ticket)) .yard 0x34 [[0], [1], [3]] =
        [yes [], no 6 1, no 5 1]) ∧
    (((answers (.readChannel .office) (siteChannel (.settling ticket 600)) .office 0x35 [[0]]).map fun x =>
        x.map fun y => (y.1, y.2.length, y.2.take 3)) = [some (0x80, 49, [0, 4, 0])] ∧
        answers (.readChannel .office) site .office 0x35 [[3]] = [no 5 1]) ∧
    (((answers (.takeDeliveryRecord .office)
          { site with deliveries.log := [ticket.record 0 5100 300 false .zero] } .office 0x36 [[]]).map fun x =>
        x.map fun y => (y.1, y.2.length, y.2.take 4)) = [some (0x80, 44, [0, 0, 0, 77])] ∧
        answers (.takeDeliveryRecord .office) site .office 0x36 [[]] = [no 9 0]) := by
  refine ⟨?_, ?_, ?_, ?_, ?_, ?_, ?_⟩ <;> decide +kernel

/-- The requests of 07. -/
theorem test_stageRequests :
    (answers (.assignInput .yard) site .yard 0x38
          [[0, 1, 255], [8, 0, 0], [1, 2, 0], [1, 0, 12], [0, 0, 255], [1, 0, 2], [0, 1, 0]] =
        [yes [], no 5 1, no 5 2, no 5 3, no 6 2, no 0x0A 3, no 0x0B 3]) ∧
    (answers (.setStage .yard) site .yard 0x39 [[7, 1, 10], [8, 0, 1], [0, 2, 1], [0, 0, 0], [0, 0, 11]] =
        [yes [], no 5 1, no 5 2, no 5 3, no 5 3]) ∧
    (answers (.changeOver .yard) site .yard 0x3A [[0], [8], [1]] = [yes [], no 5 1, no 0x0A 1] ∧
        (after (.changeOver .yard) (asking site .yard 0x3A [0])).setStateOf 1 = some .cranking ∧
        answers (.changeOver .yard) { site with loader.resetDue := true } .yard 0x3A [[0], [8]] = [no 6 0, no 6 0]) ∧
    (answers (.abortChangeover .yard) (siteStage (change .preparing .none none)) .yard 0x3B [[0], [1], [8]] =
        [yes [], no 6 1, no 5 1] ∧
        answers (.abortChangeover .yard) (siteStage (change .closing .none none)) .yard 0x3B [[0]] = [no 0x0C 0]) ∧
    (answers (.restoreStage .yard) (siteStage .dark) .yard 0x3C [[0, 0], [0, 1], [8, 0], [0, 2], [1, 0]] =
        [yes [], yes [], no 5 1, no 5 2, no 0x0A 1] ∧
        answers (.restoreStage .yard) { siteStage .dark with loader.resetDue := true } .yard 0x3C [[0, 0]] = [no 6 0]) ∧
    (((answers (.readStage .office) site .office 0x3D [[0]]).map fun x => x.map fun y => (y.1, y.2.length, y.2.take 8)) =
        [some (0x80, 31, [0, 2, 1, 0, 0, 1, 0, 3])] ∧
        answers (.readStage .office) site .office 0x3D [[8]] = [no 5 1]) := by
  refine ⟨?_, ?_, ?_, ?_, ?_, ?_⟩ <;> decide +kernel

/-- The requests of 08. -/
theorem test_mapRequests :
    (answers (.installMap .office) metered .office 0x40
          [[95, 3, 0xFF, 1, 1], [0, 0, 7, 0, 0], [96, 0, 0, 0, 0], [0, 4, 0, 0, 0], [0, 0, 0, 2, 0], [0, 0, 0, 0, 2]] =
        [yes [1, 255], yes [0, 255], no 5 1, no 5 2, no 5 3, no 5 4]) ∧
    (answers (.clearMapAll .office) metered .office 0x41 [[0, 0], [3, 0], [0, 1]] = [yes [1], no 5 1, no 5 2]) ∧
    (answers (.clearMapUnpinned .office) metered .office 0x41 [[1, 0], [1, 1]] = [yes [1], no 5 2]) ∧
    (answers (.clearMapCircuit .office) metered .office 0x41 [[2, 0], [2, 95], [2, 96]] =
        [yes [1], no 0x0A 2, no 5 2]) ∧
    (answers (.readMiss .office) { start with billing.miss := some ⟨3, 1, 600, .zero, true⟩ } .office 0x42 [[]] =
        [yes [1, 3, 1, 0, 0, 2, 0x58, 0, 0, 0, 0, 1, 0]]) ∧
    (((answers (.readMap .office) metered .office 0x43 [[0], [31]]).map fun x =>
        x.map fun y => (y.1, y.2.length, y.2.take 6)) =
        [some (0x80, 66, [0, 1, 0, 0, 5, 1]), some (0x80, 6, [0, 1, 255, 0, 0, 0])] ∧
        answers (.readMap .office) metered .office 0x43 [[32]] = [no 5 1]) ∧
    (answers (.readCircuit .office) metered .office 0x44 [[0], [96]] =
        [yes [0, 0, 0, 1, 1, 0, 8, 0, 0, 3, 0xE8, 0, 0, 6, 0x40, 0, 0, 0, 0, 0, 0, 3, 0xE8, 0, 0, 2, 0x58, 0, 0, 0, 0, 0, 0, 0,
            0, 0, 0, 0, 0, 0, 0, 0, 0, 0, 5, 0], no 5 1]) := by
  refine ⟨?_, ?_, ?_, ?_, ?_, ?_, ?_⟩ <;> decide +kernel

/-- The requests of 09 and 10. -/
theorem test_tallyRequests :
    ((after (.statement .yard) (asking start .yard 0x48 [3, 0xFF])).tally.work = [.statement .yard 1023] ∧
        answers (.statement .yard) start .yard 0x48 [[4, 0]] = [no 5 1]) ∧
    ((after (.rewriteAccount .office)
          (asking start .office 0x49 (be 2 5 ++ List.replicate 45 0 ++ [3, 0x3F, 0xFF]))).tally.work =
        [.rewrite 5 ⟨.zero, .zero, 0, 0, 0, 0, 3, 16383⟩] ∧
        answers (.rewriteAccount .office) start .office 0x49
          [be 2 1024 ++ List.replicate 48 0, be 2 5 ++ List.replicate 45 0 ++ [4, 0, 0],
            be 2 5 ++ List.replicate 45 0 ++ [0, 0x40, 0]] = [no 5 1, no 5 13, no 5 14]) ∧
    ((after (.flushTotals .office) (asking start .office 0x4A [])).tally.work = [.flush 0 0]) ∧
    ((after (.initTally .office) (asking start .office 0x4B [])).tally.work = [.initTally false 0 0] ∧
        answers (.initTally .office) { start with billing.sweep := some ⟨.timed, 0⟩ } .office 0x4B [[]] = [no 6 0]) ∧
    (answers (.readTallyFault .office) { start with tally.quarantine := [7] } .office 0x4C [[]] =
        [yes (List.replicate 13 0 ++ [1, 0, 7] ++ List.replicate 14 0)]) := by
  refine ⟨?_, ?_, ?_, ?_, ?_⟩ <;> decide +kernel

/-- The requests of 11. -/
theorem test_periodRequests :
    (answers (.closePeriod .office) site .office 0x50 [[]] = [some (0x81, [])] ∧
        answers (.closePeriod .office) { site with period.number := 255 } .office 0x50 [[]] = [no 5 0]) ∧
    (((answers (.takeHireRecord .office)
          { site with period.hire := [hireLine 1 .release lease 3 .zero] } .office 0x51 [[]]).map fun x =>
        x.map fun y => (y.1, y.2.length, y.2.take 2)) = [some (0x80, 30, [1, 2])] ∧
        answers (.takeHireRecord .office) site .office 0x51 [[]] = [no 9 0]) ∧
    (answers (.readPeriod .yard) site .yard 0x52 [[]] = [yes [0, 0, 0, 0, 0, 0, 0, 0, 2, 24]]) := by
  refine ⟨?_, ?_, ?_⟩ <;> decide +kernel
end

/-! ## One step of each event -/

mutual
/-- HARD RESET, PLAN LOADED, SOFT RESET and its flush. -/
theorem test_resets :
    ((after (.hardReset (some ⟨true, 55294, [1, 2]⟩)) site).tallyMem = [(55294, 1), (55295, 2)] ∧
        (after (.hardReset none) site).sets.used 0 = none) ∧
    ((after .planLoaded { State.reset with
        planFitted := true
        planMem := Memory.writeBytes [] 0
          (planHeader 8 ++ ([1, 1, 0, 2, 0x12, 0x34] ++ checkBytes [1, 1, 0, 2, 0x12, 0x34])) }).loader.site = 0x1234 ∧
        (after .planLoaded State.reset).loader.ready = true) ∧
    ((after .softReset { site with loader.resetDue := true }).line.queue = [] ∧
        (after .softReset { site with loader.resetDue := true }).loader.lastSoft = true ∧
        (let t := after .softReset { listening .poll .set 0 5 with loader.resetDue := true };
          t.line.current.map (fun x => x.phase) = some .chosen ∧
            (after .lineQuiet t).line.current.map (fun x => x.phase) = some .sending)) ∧
    ((after .softResetFlushStep { start with tally.work := [.softFlush 62] }).tally.work = [.softFlush 63] ∧
        (after .softResetFlushStep { start with tally.work := [.softFlush 63] }).loader.resetDue = true) := by
  refine ⟨?_, ?_, ?_, ?_⟩ <;> decide +kernel

/-- The events of the time base. -/
theorem test_timeBase :
    ((after .timeBaseStep (siteSet { hired .warming .running 0 with timer := some ⟨.warmUp, 5⟩ })).set 0 =
        some { hired .warming .running 0 with timer := some ⟨.warmUp, 4⟩ } ∧
        (after .timeBaseStep start).tenths = 1) ∧
    ((after .clockIncrement { start with clock := ⟨.running, 3, 86399, 10, [], 300, 250000, 7⟩ }).clock =
        ⟨.running, 4, 0, 0, [], 300, 250000, 8⟩ ∧
        (after .clockIncrement { start with clock := ⟨.running, 255, 86399, 10, [], 300, 250000, 7⟩ }).clock.state = .ended) ∧
    (((after .sweepDue { metered with clock.elapsed := 300 }).tally.work.map fun o => o.isUpdate) = [true] ∧
        (after .sweepDue { metered with clock.elapsed := 299 }).tally.work = []) ∧
    (((after .wholeSecond { site with tenths := 10 }).lease 0).map (fun l => l.total.runtime) = some 1 ∧
        ((after .wholeSecond { site with tenths := 10 }).lease 1).map (fun l => l.total.runtime) = some 0) := by
  refine ⟨?_, ?_, ?_, ?_⟩ <;> decide +kernel

/-- Timers of sets. -/
theorem test_setTimers :
    (((after (.crankTimerExpiry 0) (siteSet { hired (.cranking 1 .crank) .off 0 with timer := some ⟨.crank, 0⟩ })).line.queue.map
        fun c => c.order) = [.stopEngine]) ∧
    (((after (.crankRestExpiry 0)
        (siteSet { hired (.cranking 3 .rest) .off 0 with timer := some ⟨.crankRest, 0⟩ })).set 0).map (fun r => r.state) =
        some (.faulted .noStart)) ∧
    (((after (.warmUpExpiry 0) (siteSet { hired .warming .running 0 with timer := some ⟨.warmUp, 0⟩ })).set 0).map
        (fun r => r.state) = some .online) ∧
    (((after (.coolDownExpiry 0) (siteSet { hired .cooling .running 0 with timer := some ⟨.coolDown, 0⟩ })).line.queue.map
        fun c => c.order) = [.stopEngine]) := by
  refine ⟨?_, ?_, ?_, ?_⟩ <;> decide +kernel

/-- Timers of channels and stages. -/
theorem test_yardTimers :
    (((after (.settleExpiry 0) (siteChannel (.settling ticket 0))).deliveries.log.map fun r => (r.ticket, r.outcome)) =
        [(77, .short)]) ∧
    (((after (.prepareExpiry 0) (siteStage (change .preparing .none (some ⟨.prepare, 0⟩)))).stage 0).map
        (fun x => x.state) = some (.fed .a)) ∧
    (((after (.confirmExpiry 0) (siteStage (change .closing .none (some ⟨.confirm, 0⟩)))).stage 0).map
        (fun x => x.state) = some .dark) ∧
    (((after (.deadTimeExpiry 0) (siteStage (change .dead .none (some ⟨.dead, 0⟩)))).context 0).map
        (fun c => (c.step, c.timer)) = some (.closing, some ⟨.confirm, 20⟩)) := by
  refine ⟨?_, ?_, ?_, ?_⟩ <;> decide +kernel

/-- The events of the console lines. -/
theorem test_consoleLines :
    ((after (.frameComplete .yard (0x33 :: identifyBytes)) start).yard.inProgress = some ⟨⟨0x01, 7, []⟩, false⟩ ∧
        (after (.frameComplete .yard identifyBytes) { start with loader.resetDue := true }).yard.buffer =
          [⟨0x01, 7, []⟩] ∧
        (after (.frameComplete .yard identifyBytes)
          { start with yard.buffer := [⟨1, 1, []⟩, ⟨1, 2, []⟩] }).yard.inputDiscarded = true) ∧
    (({ start with yard.buffer := [⟨1, 1, []⟩, ⟨1, 2, []⟩] } : State).transmit.yard.buffer = [⟨1, 2, []⟩] ∧
        ({ start with yard.buffer := [⟨1, 1, []⟩], yard.inProgress := some ⟨⟨1, 2, []⟩, true⟩ } : State).transmit.yard.buffer =
          [⟨1, 1, []⟩]) ∧
    ((after (.frameGap .yard (identifyBytes.take 4)) start).yard = start.yard) ∧
    ((after (.framingError .office (identifyBytes.take 2)) start).office = start.office) ∧
    ((after (.frameLengthBad .yard [0x5A, 1]) start).yard = start.yard) ∧
    ((after (.frameTransmitted .yard) { start with
        yard := { start.yard with inProgress := some ⟨⟨1, 7, []⟩, true⟩, tx := some ⟨⟨0x80, 7, [0]⟩, true⟩ } }).yard = start.yard) := by
  refine ⟨?_, ?_, ?_, ?_, ?_, ?_⟩ <;> decide +kernel

/-- The Tally controller's work. -/
theorem test_workList :
    ((after .accountUpdate (after .sweepDue { metered with
        clock.elapsed := 300, tally.lines := start.tally.lines.set 5 (some ⟨false, 5, zeroRecord 0⟩) })).circuit 0 =
        some ⟨0, .current, false, false, 1000, 1600, .zero, 1600, 600, 0⟩) ∧
    (((sent (after .performStatement { start with tally.work := [.statement .yard 5] }) .yard).map fun x => x.1) = some 0x82 ∧
        sent (after .performStatement { start with tally.quarantine := [5], tally.work := [.statement .yard 5] }) .yard =
          no 6 1) ∧
    ((after .performRewrite { start with
          tally.quarantine := [5, 6], tally.work := [.rewrite 5 (zeroRecord 0)] }).tally.quarantine = [6] ∧
        sent (after .performRewrite { start with tally.work := [.rewrite 5 (zeroRecord 0)] }) .office = yes [0, 0]) ∧
    (sent (after .flushStep { start with
          tally.work := [.flush 63 4], tally.lines := start.tally.lines.set 63 (some ⟨true, 63, zeroRecord 0⟩) }) .office =
        yes [5]) ∧
    ((after .windowWriteBackStep { start with tally.work := [.windowWriteBack .writeBack 63] }).tally.work =
        [.windowWriteBack .invalidate 0] ∧
        sent (after .windowWriteBackStep { start with tally.work := [.windowWriteBack .invalidate 63] }) .office = yes []) ∧
    (sent (after .initTallyStep { start with
          tally.quarantine := [9], tally.work := [.initTally true 1023 1023] }) .office = yes [4, 0, 1]) := by
  refine ⟨?_, ?_, ?_, ?_, ?_, ?_⟩ <;> decide +kernel

/-- Transactions on the yard line. -/
theorem test_transactions :
    ((after .lineQuiet site).line.current = some ⟨.poll, .set, 0, 5, .sending, false⟩) ∧
    (((after .closingMarkSent { site with
        line := { site.line with current := some ⟨.poll, .set, 0, 5, .sending, false⟩ } }).line.current.map fun t => t.phase) =
        some .listening) ∧
    (((after (.replyAccepted (lineFrame 0 5 0x81 [2, 0, 0x13, 0x88, 0, 0, 0, 9, 0, 5])) (listening .poll .set 0 5)).set 0).bind
          (fun r => r.report) = some ⟨.running, 0, 5000, 9, 5, .zero⟩) ∧
    (((after (.transactionFault 3 (.bytes [0xB6, 0, 5, 0xB6])) (listening .poll .set 0 5)).line.station .set 0).map
        (fun x => (x.run, x.lastFault)) = some (1, some .badCheck)) ∧
    (((after (.silent ⟨0, false⟩) (listening .poll .set 0 5)).line.station .set 0).map (fun x => (x.run, x.lastFault)) =
        some (1, some .silent)) ∧
    (((after (.tooLong ⟨60, true⟩) (listening .poll .set 0 5)).line.station .set 0).map (fun x => (x.run, x.lastFault)) =
        some (1, some .tooLong)) := by
  refine ⟨?_, ?_, ?_, ?_, ?_, ?_⟩ <;> decide +kernel

/-- The yard line outside transactions. -/
theorem test_outsideTransactions :
    ((after (.frameOutsideTransaction (lineFrame 0 5 0x81 [])) { site with line.jamTimer := 50 }).line.jamTimer = 0) ∧
    ((after (.badFrameOutsideTransaction 6 (.framingError [0xB6, 1])) { site with line.jamTimer := 50 }).line.jamTimer = 56) ∧
    ((after .lineJammed (listening .poll .set 0 5)).line.jammed = true ∧
        (after .lineJammed (listening .poll .set 0 5)).line.current = none) ∧
    ((after .lineClear { site with line.jammed := true }).line.jammed = false) := by
  refine ⟨?_, ?_, ?_, ?_⟩ <;> decide +kernel

theorem test_step :
    (match step { start with pending := [.timeBaseStep, .wholeSecond] } with
      | .next t => some (t.tenths, t.pending)
      | _ => none) = some (1, [.wholeSecond]) ∧
      step State.reset matches .next _ := by decide +kernel
end

/-! ## States that meet the hypotheses of the statements

A statement about a request: `test_witness_offered` gives that the request is offered, and the payloads of the test of its
chapter's requests above are the boundary values of its clauses, each with the answer of the clause it falls under. Here
stand the states and operands of the other hypotheses, clause by clause. -/

mutual
theorem test_witness_StepRunsTheFrontCommand :
    ({ start with pending := [.timeBaseStep] } : State).pending = [.timeBaseStep] ∧ start.pending = [] := ⟨rfl, rfl⟩
theorem test_witness_HardResetGivesResetValues : 55294 + ([1, 2] : List Byte).length ≤ 55296 ∧ 3 < 4 ∧ 39 < 40 := by decide
theorem test_witness_FramesAreReceived :
    ((List.replicate 120 (0 : Byte)).length ≤ 120 ∧ (start.port .yard).rx = .hunting) ∧
      (([1, 7] : List Byte).length = (2 : Byte).toNat ∧ ([0, 0] : List Byte).length = 2 ∧
        ([0, 0] : List Byte) ≠ checkBytes [2, 1, 7]) ∧
      (2 ≤ (122 : Byte).toNat ∧ (122 : Byte).toNat ≤ 122 ∧ (List.replicate 123 (0 : Byte)).length < (122 : Byte).toNat + 2) ∧
      ((1 : Byte).toNat < 2 ∧ 122 < (123 : Byte).toNat) := by decide +kernel
theorem test_witness_TransmitterSendsReplyBeforeNotice :
    (({ start.yard with tx := some ⟨⟨0x80, 7, [0]⟩, true⟩ } : PortState).tx = some ⟨⟨0x80, 7, [0]⟩, true⟩) ∧
      (let q : PortState := { start.yard with waiting := some (.done []), inProgress := some ⟨⟨1, 7, []⟩, true⟩ };
        q.tx = none ∧ q.waiting = some (.done []) ∧ q.inProgress = some ⟨⟨1, 7, []⟩, true⟩) ∧
      (let q : PortState := { start.yard with notices := [⟨.started, .zero, []⟩] };
        q.tx = none ∧ q.waiting = none ∧ q.notices = [⟨.started, .zero, []⟩]) ∧
      start.yard.tx = none ∧ start.yard.waiting = none ∧ start.yard.notices = [] ∧
      (let q : PortState := { start.yard with buffer := [⟨1, 7, []⟩] };
        q.inProgress = none ∧ q.buffer = [⟨1, 7, []⟩]) := by decide
theorem test_witness_HandlerRefusesBeforeTheOwner :
    (∀ r ∈ requestRows, r.kind ≠ 0x04) ∧
      requestOf (.setClock .yard) = some (.yard, .setClock) ∧ takesForm (.setClock .yard) ⟨0x10, 7, []⟩ = true ∧
      State.reset.loader.ready = false ∧ RequestRow.setClock.kind ≠ 0x01 ∧ RequestRow.setClock.allowedOn .yard = false ∧
      RequestRow.setClock.allowedOn .office = true ∧ start.loader.ready = true ∧
      (asking start .yard 0x10 []).yard.inProgress = some ⟨⟨0x10, 7, []⟩, false⟩ ∧
      (∀ x, start.yard.inProgress = some x → x.judged = true ∨ x.kind ≠ 0x10) := by
  refine ⟨?_, ?_, ?_, ?_, ?_, ?_, ?_, ?_, ?_, ?_⟩ <;> decide
theorem test_witness_PayloadsAreCheckedAgainstTheirLayout :
    (Layout.fixed [1, 3]).parse [1, 0, 0, 2] = .ok [1, 2] ∧
      (Layout.fixed [1, 3]).parse [1, 0, 0, 2, 9] = .error (.refused .format 0 0xFF) ∧
      (Layout.fixed [1, 3]).parse [1, 0, 0] = .error (.refused .format 2 0xFF) ∧
      (Layout.fixed [1, 3]).parse [] = .error (.refused .format 1 0xFF) ∧
      (Layout.list [2] 8 [1]).parse [0, 5] = .error (.refused .format 2 0xFF) ∧
      (Layout.list [2] 8 [1]).parse [0, 5, 9] = .error (.refused .range 2 0xFF) ∧
      (Layout.list [2] 8 [1]).parse [0, 5, 1] = .error (.refused .format 2 0xFF) ∧
      (Layout.list [2] 8 [1]).parse [0, 5, 1, 6] = .ok [5, 1, 6] := by
  refine ⟨?_, ?_, ?_, ?_, ?_, ?_, ?_, ?_⟩ <;> rfl
theorem test_witness_ClockIncrementAddsASecond :
    (let c : Clock := ⟨.running, 0, 86398, 10, [], 300, 250000, 0⟩;
      c.state = .running ∧ c.phase = 10 ∧ c.second < 86399) ∧
      (let c : Clock := ⟨.running, 254, 86399, 10, [], 300, 250000, 0⟩;
        c.state = .running ∧ c.phase = 10 ∧ c.second = 86399 ∧ c.day < 255) ∧
      (let c : Clock := ⟨.running, 255, 86399, 10, [], 300, 250000, 0⟩;
        c.state = .running ∧ c.phase = 10 ∧ c.second = 86399 ∧ c.day = 255) := by decide
theorem test_witness_ClockCalendarAndBand :
    (let before : List TariffEntry := [⟨100, 2⟩];
      let e : TariffEntry := ⟨200, 1⟩;
      let rest : List TariffEntry := [⟨300, 3⟩];
      ((before ++ e :: rest).Pairwise fun a b => a.start < b.start) ∧ e.start ≤ 299 ∧ ∀ x ∈ rest, 299 < x.start) ∧
      (∀ x ∈ ([⟨100, 2⟩] ++ [⟨200, 1⟩] : List TariffEntry), 99 < x.start) ∧
      bandAt [⟨100, 2⟩, ⟨200, 1⟩, ⟨300, 3⟩] 299 = 1 ∧ bandAt [⟨100, 2⟩, ⟨200, 1⟩] 99 = 1 := by decide
theorem test_witness_WriteTariffReplacesTheCalendar :
    (let xs : List TariffEntry := [⟨0, 0⟩, ⟨86399, 3⟩];
      xs.length ≤ 8 ∧ (∀ e ∈ xs, e.start < 16777216 ∧ e.band < 256) ∧ (xs.Pairwise fun a b => a.start < b.start) ∧
        ∀ e ∈ xs, e.start ≤ 86399 ∧ e.band ≤ 3) ∧
      (86399 < (⟨86400, 0⟩ : TariffEntry).start ∧ (∃ x ∈ ([⟨5, 0⟩] : List TariffEntry), 5 ≤ x.start) ∧
        3 < (⟨6, 4⟩ : TariffEntry).band) := by decide
theorem test_witness_SweepSettingsAndSweepDue :
    (let s : State := { start with clock.elapsed := 300 };
      s.clock.elapsed = s.clock.interval ∧ s.billing.sweep = none ∧ s.period.close = none) ∧
      ({ start with billing.sweep := some ⟨.timed, 5⟩ } : State).billing.sweep ≠ none ∧
      start.clock.elapsed < start.clock.interval := by decide
theorem test_witness_TimeBaseStepAndWholeSecond :
    site.set 0 = some (hired .online .running 5000) ∧ site.set 2 = none ∧
      (siteChannel (.settling ticket 600)).channel 0 = some ⟨some ⟨false, 100⟩, .settling ticket 600⟩ ∧
      (siteChannel .idle).channel 0 = some ⟨some ⟨false, 100⟩, .idle⟩ ∧
      ((siteStage (change .dead .none none)).stage 0).map (fun x => x.state) = some (change .dead .none none) ∧
      (site.stage 0).map (fun x => x.state) = some (.fed .a) ∧ ({ site with tenths := 10 } : State).tenths = 10 ∧
      (hired .online .running 5000).lease = some lease ∧ SetRecord.fresh.lease = none := by decide +kernel

theorem test_witness_LowestMatchingWindowGoverns :
    windowed.governing .engine 3 = some (0, ⟨true, 0, 3, true, true, true, true, .direct, 1⟩) ∧
      windowed.denies .engine 3 = some 0 ∧ (windowed.governing .engine 4).map (fun x => x.1) = some 1 ∧
      windowed.denies .engine 1023 = none ∧ start.windows.governing .engine 0 = none ∧
      windowed.deniesSet .crew 0 = some 5 ∧ windowed.governingSet .crew 11 = none := by decide +kernel
theorem test_witness_WindowWriteBackVisitsALine :
    (let s : State := { start with
        windows := windowed
        tally.work := [.windowWriteBack .invalidate 63]
        tally.lines := (start.tally.lines.set 0 (some ⟨true, 0, zeroRecord 0⟩)).set 63 (some ⟨false, 63, zeroRecord 0⟩) };
      s.tally.work = [.windowWriteBack .invalidate 63] ∧
        s.tally.lines.get 0 = some (some ⟨true, 0, zeroRecord 0⟩) ∧ s.windows.mode 0 = .direct ∧
        s.tally.lines.get 63 = some (some ⟨false, 63, zeroRecord 0⟩) ∧ s.windows.mode 63 ≠ .direct ∧
        s.tally.lines.get 1 = some none) := by decide +kernel
theorem test_witness_LineFramesAndReportsAreReadBack :
    (∀ b ∈ ([0x12, 0xB5] : List Byte), b ≠ 0xB6) ∧ (List.replicate 48 (0xB6 : Byte)).length ≤ 48 ∧
      endingOf (.bytes ([0x12, 0xB5] ++ List.replicate 2 0xB6 ++ lineFrame 5 0 0x01 (List.replicate 48 0xB6))) =
        some (.good 5 0 0x01 (List.replicate 48 0xB6)) ∧
      ([0, 0, 0, 0] : List Byte).length < 5 ∧ (List.replicate 54 (0 : Byte)).length = 54 ∧
      checkBytes [0, 5, 0x81] ≠ [0, 0] ∧ (List.replicate 8 (0 : Word32)).length = 8 ∧
      reportOf .set .zero [3, 0, 0, 1, 0, 0, 0, 2, 0, 3] = some (.set ⟨.shutdown, 0, 1, 2, 3, .zero⟩) ∧
      reportOf .set .zero [4, 0, 0, 1, 0, 0, 0, 2, 0, 3] = none ∧ reportOf .board .zero [16, 0, 0] = none ∧
      reportOf .bowser .zero [2, 0, 0, 0, 0] = none := by
  refine ⟨?_, ?_, ?_, ?_, ?_, ?_, ?_, ?_, ?_, ?_, ?_⟩ <;> decide +kernel
theorem test_witness_RemoveStationFreesTheEntry :
    site.line.stations.get 4 = some (some ⟨9, .meter, 0, 0, .answering, 0, none, none⟩) ∧
      (∀ j < 4, ∀ x, site.line.stations.get j = some (some x) → x.address ≠ 9) ∧
      site.objectInUse ⟨9, .meter, 0, 0, .answering, 0, none, none⟩ = false ∧
      site.objectInUse ⟨5, .set, 0, 0, .answering, 0, none, none⟩ = true ∧
      (siteChannel (.armed ticket)).objectInUse ⟨7, .bowser, 0, 0, .answering, 0, none, none⟩ = true ∧
      (siteStage (change .dead .none none)).objectInUse ⟨8, .board, 0, 0, .answering, 0, none, none⟩ = true := by
  refine ⟨by decide, ?_, by decide +kernel, by decide +kernel, by decide +kernel, by decide +kernel⟩
  intro j hj x hx
  interval_cases j <;> simp only [site, start, State.reset] at hx <;> cases hx <;> decide

theorem test_witness_CommandsAreOffered :
    site.line.station .set 2 = none ∧ (site.line.station .set 0).map (fun x => x.state) = some .answering ∧
      site.line.hasRoom .routine = true ∧
      (busyLine (List.replicate 6 (queued 1 .readCounters .sequence false)) []).line.hasRoom .routine = false ∧
      (busyLine (List.replicate 6 (queued 1 .readCounters .sequence false)) []).line.hasRoom .safety = true ∧
      (busyLine (List.replicate 8 (queued 1 .pumpHalt .safety false)) []).line.hasRoom .safety = false ∧
      (∃ c ∈ (busyLine [] [queued 4 .pumpRun .routine false]).line.waiting, c.serial = 4) ∧
      (busyLine [queued 4 .pumpRun .routine true] []).line.queued 4 = some (queued 4 .pumpRun .routine true) ∧
      (busyLine [queued 4 .pumpRun .routine false] []).line.queued 4 = some (queued 4 .pumpRun .routine false) ∧
      site.line.queued 4 = none ∧
      (choosing.line.queued 4 = some (queued 4 .pumpRun .routine false) ∧
        choosing.line.current.map (fun t => (t.phase, t.job)) = some (.chosen, .command 4 .pumpRun)) ∧
      (fateOf site.line (queued 4 .pumpRun .routine false) = .entered ∧
        fateOf site.line { queued 4 .pumpRun .routine false with object := 2 } = .ended .removed ∧
        fateOf bowserLost.line (queued 4 .pumpRun .routine false) = .ended .noAnswer ∧
        fateOf site.line { queued 4 .pumpRun .routine false with removed := true } = .ended .removed ∧
        fateOf (busyLine (List.replicate 6 (queued 1 .readCounters .sequence false)) []).line
          (queued 4 .pumpRun .routine false) = .waits) := by
  refine ⟨?_, ?_, ?_, ?_, ?_, ?_, ?_, ?_, ?_, ?_, ?_, ?_⟩ <;> decide +kernel
theorem test_witness_LineChoosesListensAndGoesQuiet :
    site.told = [] ∧ State.reset.loader.ready = false ∧
      (site.loader.ready = true ∧ site.line.jammed = false ∧ site.line.current = none) ∧
      (busyLine [queued 4 .readCounters .sequence false] []).line.pick = some (queued 4 .readCounters .sequence false) ∧
      (site.line.choosePoll.map fun l => (l.pointer, l.current)) =
        some (1, some ⟨.poll, .set, 0, 5, .chosen, false⟩) ∧
      start.line.choosePoll = none ∧ (∀ e ∈ start.line.stations.cells, e = none) ∧
      (listening .poll .set 0 5).line.current = some ⟨.poll, .set, 0, 5, .listening, false⟩ ∧
      (let l : Line := { site.line with
          pointer := 39, stations := site.line.stations.set 39 (some ⟨5, .set, 0, 0, .answering, 0, none, none⟩) };
        l.choosePoll.map (fun l => (l.pointer, l.round)) = some (0, 1)) := by
  refine ⟨?_, ?_, ?_, ?_, ?_, ?_, ?_, ?_, ?_⟩ <;> decide +kernel
theorem test_witness_AcceptedReplyEndsTheTransaction :
    endingOf (.bytes (lineFrame 0 9 0x82 (List.replicate 32 1))) =
        some (.good 0 (BitVec.ofNat 8 9) 0x82 (List.replicate 32 1)) ∧
      (reportOf .meter .zero (List.replicate 32 1)).isSome = true ∧
      (listening (.command 4 .readCounters) .meter 0 9).line.station .meter 0 =
        some ⟨9, .meter, 0, 0, .answering, 0, none, none⟩ := by
  refine ⟨?_, ?_, ?_⟩ <;> decide +kernel
theorem test_witness_FailedTransactionCounts :
    (let t : Transaction := ⟨.poll, .set, 0, 5, .listening, true⟩;
      let s : State := { site with line := { site.line with current := some t } };
      s.line.current = some t ∧ t.phase = .listening ∧ t.void = true ∧ t.verdict s.now .bad = .failed .badCheck) ∧
      (let t : Transaction := ⟨.poll, .set, 0, 5, .listening, false⟩;
      endingOf (.bytes [0xB6, 0, 5, 0xB6]) = some .bad ∧ t.verdict .zero .bad = .failed .badCheck ∧
        t.verdict .zero (.good 1 5 0x81 []) = .failed .wrongSource ∧ t.verdict .zero (.good 0 5 0x82 []) = .failed .nak) ∧
      (let st : Station := ⟨5, .set, 0, 0, .answering, 5, none, none⟩;
        st.state ≠ .lost ∧ st.run < 6 ∧ st.run + 1 = 6) ∧
      (let s := busyLine [queued 4 .pumpRun .routine true] [queued 5 .pumpHalt .safety false];
        (∃ c ∈ s.line.queue, c.isFor .bowser 0 = true) ∧ (∃ c ∈ s.line.waiting, c.isFor .bowser 0 = true) ∧
          (s.endWaiting (fun c => c.isFor .bowser 0) .noAnswer).line.waiting = []) ∧
      (∃ c ∈ choosing.line.queue, c.isFor .bowser 0 = true ∧ c.serial = 4) := by
  refine ⟨⟨?_, ?_, ?_, ?_⟩, ⟨?_, ?_, ?_, ?_⟩, ?_, ?_, ?_⟩ <;> decide +kernel
theorem test_witness_JammedLineAndItsEnd :
    (site.line.jammed = false ∧ choosing.line.current.any (fun t => t.phase == .sending) = false) ∧
      ({ site with line.jammed := true } : State).line.jammed = true ∧
      endingOf (.bytes (lineFrame 0 5 0x81 [])) = some (.good 0 5 0x81 []) ∧
      endingOf (.framingError [0xB6, 1]) = some .bad ∧ endingOf (.bytes [0xB6, 1, 0xB5, 0xB6]) = some .aborted := by
  refine ⟨?_, ?_, ?_, ?_, ?_⟩ <;> decide +kernel
theorem test_witness_ReportsAreMeasuredAndDecideTheState :
    site.set 0 = some (hired .online .running 5000) ∧ (hired .online .running 5000).lease = some lease ∧
      ((site.judgeEngine 0 (hired .online .running 5000) .off).setStateOf 0 = some .faulted) ∧
      ((hired .online .running 5000).measure ⟨.running, 0, 4900, 50000, 0, .zero⟩ false).lease.map
        (fun l => (l.measured, l.windowEnergy, l.total.energy)) = some (some 50, 0, 50000) ∧
      (site.judgeEngine 1 (hired .stopped .off 5000) .running).setStateOf 1 = some .warming ∧
      (hired (.lost .online) .running 5000).state.name = .lost ∧
      (SetRecord.fresh.lease = none ∧ SetRecord.fresh.reference = none) := by
  refine ⟨?_, ?_, ?_, ?_, ?_, ?_, ?_⟩ <;> decide +kernel
theorem test_witness_SetTimersExpire :
    (let r := { hired (.cranking 3 .rest) .off 0 with timer := some ⟨.crankRest, 0⟩ };
      (siteSet r).set 0 = some r ∧ r.state = .cranking 3 .rest ∧ r.timer = some ⟨.crankRest, 0⟩) ∧
      (∀ k, (hired .online .running 0).timer ≠ some ⟨k, 0⟩) ∧
      (let r := { hired (.cranking 1 .crank) .off 0 with timer := some ⟨.warmUp, 0⟩ };
        r.timer ≠ some ⟨.crank, 0⟩ ∧ r.timer = some ⟨.warmUp, 0⟩ ∧ r.state ≠ .warming) ∧ site.set 2 = none := by
  refine ⟨by decide +kernel, by simp [hired, SetRecord.fresh], by decide, by decide +kernel⟩
theorem test_witness_SettledDeliveryIsReconciled :
    (siteChannel (.settling ticket 0)).channel 0 = some ⟨some ⟨false, 100⟩, .settling ticket 0⟩ ∧
      (∀ d, ChannelState.settling ticket 1 ≠ .settling d 0) ∧ site.deliveries.log.length < 32 ∧
      32 ≤ ({ site with deliveries.log := List.replicate 32 (ticket.record 0 0 0 false .zero) } : State).deliveries.log.length ∧
      site.set ticket.set = some (hired .online .running 5000) := by
  refine ⟨by decide +kernel, by simp, by decide, by decide, by decide +kernel⟩
theorem test_witness_DeliveryRecordsAndChannels :
    ({ siteChannel (.heldLog (ticket.record 0 0 0 false .zero) 4) with
        deliveries.log := [ticket.record 0 5100 300 false .zero] } : State).deliveries.log =
        [ticket.record 0 5100 300 false .zero] ∧
      (siteChannel (.heldLog (ticket.record 0 0 0 false .zero) 4)).channel 0 =
        some ⟨some ⟨false, 100⟩, .heldLog (ticket.record 0 0 0 false .zero) 4⟩ ∧
      site.deliveries.log = [] ∧ site.channel 0 = some ⟨none, .idle⟩ ∧ site.channel 3 = none := by
  refine ⟨?_, ?_, ?_, ?_, ?_⟩ <;> decide +kernel
theorem test_witness_CrewRequestsOnADelivery :
    (siteChannel (.flowing ticket)).channel 0 = some ⟨some ⟨false, 100⟩, .flowing ticket⟩ ∧ site.haltBusy 0 = false ∧
      (busyLine (List.replicate 8 (queued 1 .readCounters .sequence true)) []).haltBusy 0 = true ∧
      (busyLine [queued 4 .pumpHalt .safety false] []).haltOutstanding 0 = true ∧
      site.line.stationIs .set 0 .lost = false ∧ site.levelOf 0 < (site.marksOf 0).highClear ∧
      (∃ k ∈ (busyLine [queued 4 .pumpRun .routine false] []).line.queue, k.isPump .pumpRun 0 = true ∧ k.committed = false) ∧
      (let k := queued 4 .pumpRun .routine false;
        (busyLine [k, queued 5 .readCounters .sequence true] []).line.queue = [] ++ k :: [queued 5 .readCounters .sequence true] ∧
          ∀ y ∈ [] ++ [queued 5 .readCounters .sequence true],
            y.serial ≠ k.serial ∧ (y.isPump .pumpRun 0 = true → y.committed = true)) ∧
      ((∀ k ∈ site.line.queue, k.isPump .pumpRun 0 = true → k.committed = true) ∧ site.haltOutstanding 0 = false) := by
  refine ⟨?_, ?_, ?_, ?_, ?_, ?_, ?_, ?_, ?_⟩ <;> decide +kernel
theorem test_witness_ChangeoversBeginAndAbort :
    (let auto : State := { site with stages := site.stages.modify 0 fun x => { x with auto := true } };
      let conflict : State := { auto with stages := auto.stages.modify 0 fun x => { x with inputB := none } };
      let dry : State := { auto with sets := auto.sets.set 0 (some (hired (.faulted .noStart) .off 0)) };
      ((auto.stage 0).map fun x => (x.state, x.auto)) = some (.fed .a, true) ∧ auto.loader.resetDue = false ∧
        ((auto.considerTransfer 0 .fuelLow).context 0).map (fun c => (c.kind, c.target)) = some (.fuelLow, .b) ∧
        (conflict.considerTransfer 0 .fuelLow).yard.notices.map (fun n => (n.kind, n.data)) =
          [(.noAlternate, [0, 3, 2, 255, 1])] ∧
        dry.setStateOf 0 = some .faulted ∧
        (((siteSet (hired (.faulted .noStart) .off 0)).judgeSupply 0).stage 0).map (fun x => x.lossEpisode) = some true ∧
        ((dry.judgeSupply 0).context 0).map (fun c => c.kind) = some .supplyLoss ∧
        ((auto.fuelLowRaised 0 []).context 0).isSome = true ∧ ((auto.fuelLowRaised 0 [0]).context 0).isSome = false ∧
        (((auto.fuelLowRaised 0 []).fuelLowCleared 0).stage 0).map (fun x => x.state) = some (.fed .a)) ∧
      ((site.stage 0).map fun x => x.auto) = some false ∧ ((siteStage .dark).stage 0).map (fun x => x.state) = some .dark ∧
      (siteStage (change .opening (.offered 4) none)).line.uncommitted 4 = false := by
  decide +kernel
theorem test_witness_ChangeoversEnd :
    ((siteStage (change .dead .none none)).stage 0).map (fun x => x.state) = some (change .dead .none none) ∧
      (∀ q, StageState.fed .a ≠ .changing q) := ⟨by decide +kernel, by simp⟩
theorem test_witness_StageTimersAndInterlock :
    ((siteStage (change .closing (.offered 9) (some ⟨.confirm, 0⟩))).context 0).map (fun c => (c.step, c.board, c.timer)) =
        some (.closing, .offered 9, some ⟨.confirm, 0⟩) ∧
      (siteStage (change .dead .none none)).interlockFree 0 = false ∧
      ({ siteStage (change .dead .none none) with
        stages := site.stages.modify 0 fun x => { x with
          state := change .dead .none none, report := some ⟨false, false, true, false, 900⟩ } } : State).interlockFree 0 =
        true ∧
      ((((siteStage (change .preparing .none none)).enterPreparing 0).setStateOf 1 = some .cranking) ∧
        site.headroom 1 0 = true ∧ site.setStateOf 1 = some .stopped ∧ site.setStateOf 0 = some .online) ∧
      (((siteStage (change .preparing .none none)).enterBoundary 0).context 0).map (fun c => (c.step, c.rate, c.stations)) =
        some (.boundary, some 300, [⟨0, 0, .awaitingReading⟩]) ∧
      ((siteStage (change .boundary .none none)).boundaryCheck 0).context 0 =
        ((siteStage (change .boundary .none none)).enterOpening 0).context 0 ∧
      (((siteStage (change .opening (.offered 4) none)).enterDead 0).context 0).map (fun c => (c.step, c.board, c.timer)) =
        some (.dead, .none, some ⟨.dead, 30⟩) ∧
      (let failed : State := { siteStage (change .dead .none none) with
          sets := site.sets.set 1 (some (hired (.faulted .noStart) .off 0)) };
        (failed.setChanged 1).context 0 |>.map fun c => c.step) = some .reverting ∧
      (let s : State := { siteStage (change .closing (.offered 4) none) with
          line.queue := [queued 4 (.closeInput .b) .sequence false] };
        s.line.uncommitted 4 = true) ∧
      (let r := hired .cooling .running 5000; (siteSet r).set 0 = some r ∧ r.state = .cooling ∧ r.timer = none) := by
  refine ⟨?_, ?_, ?_, ?_, ?_, ?_, ?_, ?_, ?_, ?_⟩ <;> decide +kernel
theorem test_witness_MapEntriesArePlacedAndFreed :
    metered.billing.map.get 0 = some (some ⟨0, 5, true, false⟩) ∧ metered.billing.map.get 1 = some none ∧
      (let full : Table 32 (Option MapEntry) := ⟨(List.range 32).map fun k => some ⟨k, k, false, k ≠ 3⟩, rfl⟩;
        full.get 3 = some (some ⟨3, 3, false, false⟩) ∧ full.get 2 = some (some ⟨2, 2, false, true⟩)) := by
  refine ⟨?_, ?_, ?_⟩ <;> decide +kernel
theorem test_witness_CircuitsAreBilled :
    metered.circuit 0 = some ⟨0, .current, false, false, 1000, 1600, .zero, 1000, 0, 0⟩ ∧
      metered.billing.entryOf 0 = some 0 ∧ metered.billing.entryOf 1 = none ∧
      (let twice : BillingEngine := { metered.billing with map := metered.billing.map.set 31 (some ⟨0, 9, false, false⟩) };
        twice.map.get 31 = some (some ⟨0, 9, false, false⟩) ∧ twice.entryOf 0 = some 0) ∧
      (metered.runBilling .sweep 0).2 = true ∧ metered.windows.denies .engine 5 = none ∧ 7 / 8 = 0 := by
  refine ⟨?_, ?_, ?_, ?_, ?_, ?_, ?_⟩ <;> decide +kernel
theorem test_witness_CheckCodeCorrectsOneBit :
    Memory.wf [] = true ∧ (start.tally.bank0 && start.bank0Fitted) = true ∧
      (start.tally.bank1 && start.bank1Fitted) = true := by decide
theorem test_witness_AccountUpdateIsPerformed :
    (let u : AccountUpdate := ⟨.sweep, 5, 600, 0, false, 0⟩;
      let s : State := { start with
        tally.work := [.update u], tally.lines := start.tally.lines.set 5 (some ⟨true, 69, zeroRecord 0⟩) };
      s.tally.work = [.update u] ∧ s.tally.quarantine = [] ∧ s.windows.mode 5 = .through ∧
        s.tally.lines.get 5 = some (some ⟨true, 69, zeroRecord 0⟩) ∧
        s.readRecord 5 = .uncorrectable 0 ∧ (s.writeRecord 5 (zeroRecord 3)).readRecord 5 = .good (zeroRecord 3)) ∧
      (WorkOp.isInit (.initTally false 0 0) = true ∧
        WorkOp.initTally false 0 0 ∈ [WorkOp.update ⟨.sweep, 5, 600, 0, false, 0⟩, .initTally false 0 0]) ∧
      (let b : Billing := ⟨.stream 0, 5, 600, 600, false, false⟩;
        let s : State := { metered with
          billing.inFlight := [b], billing.waiters := [⟨.sweep, 5⟩, ⟨.stream 1, 6⟩] };
        s.billing.inFlight = [] ++ b :: [] ∧ b.source = .stream 0 ∧
          s.billing.waiters = [] ++ ⟨.sweep, 5⟩ :: [⟨.stream 1, 6⟩] ∧ (∀ w ∈ s.billing.waiters, w.circuit ≠ 7) ∧
          (s.endBilling (.stream 0) .performed).billing.waiters = [⟨.stream 1, 6⟩]) := by
  refine ⟨⟨?_, ?_, ?_, ?_, ?_, ?_⟩, ?_, ?_⟩ <;> decide +kernel
theorem test_witness_TallyFaultsAreKept :
    start.tally.fault = none ∧ ({ start with tally.fault := some ⟨true, 5, 0, .fill, .zero, false⟩ } : State).tally.fault ≠ none ∧
      start.tally.quarantine.length < 8 ∧ ¬([1, 2, 3, 4, 5, 6, 7, 8] : List Nat).length < 8 := by decide
/-- O44: R179: of six words that spell zeros, words 3 and 5 are read with one bit of their check wrong; then word 4 with
two bits wrong, and word 5 too. -/
theorem test_witness_RecordReads :
    let sound : List Byte := be 8 0 ++ [0xFF];
    let once : List Byte := be 8 0 ++ [0xFE];
    let twice : List Byte := be 8 0 ++ [0xFC];
    let read (w4 w5 : List Byte) : RecordRead := readRecordBytes (sound ++ sound ++ sound ++ once ++ w4 ++ w5);
    readWord sound = .good 0 ∧ readWord once = .corrected 0 ∧ readWord twice = .uncorrectable ∧
      read sound once = .corrected (zeroRecord 0) 2 3 ∧ read twice once = .uncorrectable 4 ∧
      read twice twice = .uncorrectable 4 ∧ read once twice = .uncorrectable 5 := by
  refine ⟨?_, ?_, ?_, ?_, ?_, ?_, ?_⟩ <;> decide +kernel
theorem test_witness_StatementsAndRewrites :
    (let s : State := { start with
        tally.work := [.rewrite 5 (zeroRecord 0)], tally.lines := start.tally.lines.set 5 (some ⟨true, 5, zeroRecord 0⟩) };
      s.tally.work = [.rewrite 5 (zeroRecord 0)] ∧ s.tally.lines.get (5 % 64) = some (some ⟨true, 5, zeroRecord 0⟩)) ∧
      ({ start with tally.work := [.statement .yard 5] } : State).tally.work = [.statement .yard 5] := by
  decide +kernel
theorem test_witness_FlushAndInitialise :
    (let s : State := { start with
        tally.work := [.initTally true 1023 1023] };
      s.tally.work = [.initTally true 1023 1023] ∧ s.tally.bank0 = true ∧ 1023 < 1024) ∧
      ({ start with tally.work := [.flush 63 4] } : State).tally.work = [.flush 63 4] := by decide +kernel
theorem test_witness_PeriodsAreClosed :
    (let s : State := { site with period := ⟨4, .zero, [], some ⟨true, [0, 1]⟩⟩ };
      s.period.close = some ⟨true, [0, 1]⟩ ∧ s.period.hire.length + [0, 1].length ≤ 24 ∧ [0, 1].Nodup ∧
        ∀ i ∈ [0, 1], s.lease i ≠ none) ∧
      (let s : State := { site with period := ⟨4, .zero, [], some ⟨true, [1]⟩⟩ };
        s.lease 0 ≠ none ∧ 0 ∉ [1] ∧ (s.finalStep.period.hire.map fun l => l.set) = [0, 1]) ∧
      (let line : HireLine := ⟨5, .release, 0, 0, 4, .zero, .zero⟩;
        let s : State := { site with period := ⟨4, .zero, List.replicate 23 line, some ⟨true, [1]⟩⟩ };
        s.period.hire.length + [1].length ≤ 24 ∧ (s.finalStep.period.hire.map fun l => l.set) = List.replicate 23 5 ++ [1]) ∧
      (zeroRecord 4).period.toNat + 1 = 5 ∧ (zeroRecord 4).period.toNat = 4 ∧ (zeroRecord 4).period.toNat ≠ 6 := by
  decide +kernel
theorem test_witness_PlanIsLoadedAndPartIdentified :
    State.reset.loader.ready = false ∧ start.loader.ready = true ∧ (planHeader 1000).length = 5 ∧
      imageLength (planHeader 1000) = some 1000 ∧ imageLength (planHeader 1001) = none ∧
      sectionsOf 2 ([1, 1, 0, 2, 0x12, 0x34] ++ checkBytes [1, 1, 0, 2, 0x12, 0x34]) =
        [[1, 1, 0, 2, 0x12, 0x34] ++ checkBytes [1, 1, 0, 2, 0x12, 0x34]] ∧
      (let xs := [planSection 2 [2, 62, 0, 11, 0, 1, 3, 11, 7], planSection 5 [3]];
        takenData xs 2 = some [2, 62, 0, 11, 0, 1, 3, 11, 7] ∧ takenData xs 5 = some [3] ∧ takenData xs 7 = none ∧
          ((State.reset.applySections xs).line.stations.get 1).map (fun e => e.map fun x => (x.address, x.object, x.stage)) =
            some (some (1, 11, 7)) ∧ ((State.reset.applySections xs).set 11).isSome = true) ∧
      (let window : List Byte := [1, 0, 3, 3, 0xFF, 7, 1, 2, 3];
        let setWindow : List Byte := [1, 0, 11, 0, 15, 7, 1, 0, 0];
        let data := List.replicate 27 0 ++ window ++ (List.replicate 9 0 ++ setWindow);
        data.length = 54 ∧ takenData [planSection 7 data] 7 = some data ∧
          (State.reset.applySections [planSection 7 data]).windows.account.get 3 =
            some ⟨true, 3, 1023, true, true, true, true, .direct, 3⟩ ∧
          (State.reset.applySections [planSection 7 data]).windows.sets.get 1 = some ⟨true, 11, 15, true, true, true, true⟩) ∧
      (let data : List Byte := [0, 1, 0, 2, 0, 3, 0, 4, 0, 1, 0, 1, 0, 3, 0, 4] ++ List.replicate 80 0;
        (State.reset.applySections [planSection 4 data]).marks.get 0 = some ⟨1, 2, 3, 4⟩ ∧
          (State.reset.applySections [planSection 4 data]).marks.get 1 = State.reset.marks.get 1) ∧
      ((State.forEach 8 (State.placeStage ([255, 1, 1, 10, 0, 0, 1, 3] ++ List.replicate 24 0)) site).stage 0).map
        (fun x => (x.inputA, x.inputB, x.auto, x.deadTime)) = some (none, some 1, true, 10) ∧
      (State.forEach 8 (State.placeStage ([255, 1, 1, 10, 0, 0, 1, 3] ++ List.replicate 24 0)) site).stage 1 =
        site.stage 1 := by
  refine ⟨?_, ?_, ?_, ?_, ?_, ?_, ?_, ?_, ?_, ?_, ?_⟩ <;> decide +kernel
theorem test_witness_SoftResetKeepsWhatItMust :
    start.resetRefused = false ∧ (siteChannel (.armed ticket)).resetRefused = true ∧
      (let s : State := { start with loader.resetDue := true };
        s.loader.resetDue = true ∧ s.office.inProgress = none ∧ s.yard.inProgress = none) ∧
      ({ start with tally.work := [.softFlush 63] } : State).tally.work = [.softFlush 63] ∧
      (let s : State := { start with tally.lines := start.tally.lines.set 5 (some ⟨true, 69, zeroRecord 1⟩) };
        s.tally.lines.get 5 = some (some ⟨true, 69, zeroRecord 1⟩) ∧ 69 * 54 + 54 ≤ 3780 ∧
          s.tally.lines.get 6 = some none) := by decide +kernel
/-- O17, O45, O46, O50: an operation at the front, and one behind an update that INIT TALLY passes over. -/
theorem test_witness_Performs (u : AccountUpdate) (p : Port) :
    Performs [.statement p 5, .update u] (.statement p 5) [.update u] ∧
      Performs [.update u, .statement p 5, .initTally false 0 0] (.statement p 5) [.update u, .initTally false 0 0] ∧
      Performs [.update u, .initTally true 7 7] (.initTally true 7 7) [.update u] :=
  ⟨⟨[], _, rfl, rfl, .inl rfl⟩, ⟨[.update u], _, rfl, rfl, .inr ⟨by simp, by simp [WorkOp.isInit]⟩⟩,
    ⟨[.update u], [], rfl, by simp, .inr ⟨by simp, by simp [WorkOp.isInit]⟩⟩⟩
/-- O46: INIT TALLY with no bank present, and past the last account. -/
theorem test_witness_InitTallyEndsAtOnce :
    (let s : State := { start with tally.bank0 := false, tally.bank1 := false, tally.work := [.initTally false 0 0] };
      ¬(s.tally.bank0 = true ∨ s.tally.bank1 = true) ∧
        sent (after .initTallyStep { s with office.inProgress := some ⟨⟨0x4D, 7, []⟩, true⟩ }) .office = yes [0, 0, 0]) ∧
      1023 < 1024 := by decide +kernel
/-- O2: writes cut short within and beyond plan memory. -/
theorem test_witness_TornWrites :
    65539 + ([1] : List Byte).length ≤ 65540 ∧ 65540 < 65540 + ([1] : List Byte).length ∧
      55296 < 55295 + ([1, 2] : List Byte).length := by decide
/-- O20: the removed station's transaction on the line, its chosen one, and another station's. -/
theorem test_witness_RemovedTransactions :
    ((after (.removeStation .yard) (asking (listening .poll .meter 0 9) .yard 0x21 [9])).line.current =
        some ⟨.poll, .meter, 0, 9, .listening, true⟩) ∧
      ((after (.removeStation .yard) (asking (listening .poll .set 0 5) .yard 0x21 [9])).line.current =
        some ⟨.poll, .set, 0, 5, .listening, false⟩) ∧
      (Transaction.phase ⟨.command 4 .pumpRun, .bowser, 0, 7, .chosen, false⟩ = .chosen ∧
        choosing.line.current = some ⟨.command 4 .pumpRun, .bowser, 0, 7, .chosen, false⟩) := by
  refine ⟨?_, ?_, ?_⟩ <;> decide +kernel
/-- R54: a meter station removed while its READ COUNTERS waits, and enrolled again: the command ends REMOVED when six
commands of other stations have made room. -/
theorem test_removedWhileWaiting :
    let waiter := queued 4 .readCounters .sequence false;
    let s := after (.removeStation .yard)
      (asking (busyLine (List.replicate 6 (queued 1 (.closeInput .a) .sequence false)) [waiter]) .yard 0x21 [9]);
    let t := (s.enrol 4 9 .meter 0 0).endCommands (fun c => c.serial == 1) .done;
    s.line.waiting = [{ waiter with removed := true }] ∧ t.line.queue = [] ∧
      t.told.getLast? = some (.outcome { waiter with removed := true } .removed) := by
  refine ⟨?_, ?_, ?_⟩ <;> decide +kernel
/-- O22: a message told and acted on. -/
theorem test_witness_ToldIsActedOn :
    let s : State := { siteSet (hired (.faulted .noStart) .off 0) with told := [.setChanged 0, .fuelLowCleared 1] };
    s.told = .setChanged 0 :: [.fuelLowCleared 1] ∧ s.finish.told = [] ∧
      (s.finish.stage 0).map (fun x => x.lossEpisode) = some true := by
  refine ⟨?_, ?_, ?_⟩ <;> decide +kernel
/-- O23, O24: a delivery open to a set, and no delivery open to another. -/
theorem test_witness_OpenTo :
    OpenTo (siteChannel (.flowing ticket)) 0 0 ⟨some ⟨false, 100⟩, .flowing ticket⟩ ticket :=
  ⟨by decide +kernel, rfl, rfl, by simp⟩
theorem test_witness_ReportsReachTheDelivery :
    let report (level : Nat) : SetReport := ⟨.running, 0, level, 9, 0, .zero⟩;
    let seen (q : ChannelState) (level : Nat) : Option ChannelState :=
      ((siteChannel q).deliverySetReport 0 (report level) (some 9)).channel 0 |>.map fun x => x.state;
    seen (.armed ticket) 0 = some (.armed { ticket with energy := 9 }) ∧
      seen (.flowing ticket) 8999 = some (.flowing { ticket with energy := 9 }) ∧
      seen (.flowing ticket) 9500 = some (.halted { ticket with energy := 9, highHalts := 1, halt := some 0 } .highMark) ∧
      seen (.halted ticket .gaugeLost) 9500 = some (.halted { ticket with energy := 9 } .highMark) ∧
      seen (.settling ticket 600) 9500 = some (.settling { ticket with energy := 9 } 600) ∧
      (siteChannel (.flowing ticket)).deliverySetReport 1 (report 0) (some 9) = siteChannel (.flowing ticket) := by
  refine ⟨?_, ?_, ?_, ?_, ?_, ?_⟩ <;> decide +kernel
theorem test_witness_BowserReports :
    let seen (q : ChannelState) (count : Word32) (running : Bool) : Option (ChannelState × Bool) :=
      let t := (siteChannel q).handReport 0 (.bowser ⟨running, count⟩);
      t.channel 0 |>.map fun x => (x.state, t.haltOutstanding 0);
    seen (.armed ticket) 100 false = some (.armed ticket, false) ∧
      seen (.armed ticket) 110 true = some (.flowing { ticket with delivered := 10 }, false) ∧
      seen (.flowing ticket) 3100 true = some (.settling { ticket with delivered := 3000, halt := some 0 } 600, true) ∧
      seen (.halted ticket .hold) 110 true = some (.halted { ticket with delivered := 10, halt := some 0 } .hold, true) ∧
      seen (.settling ticket 9) 110 false = some (.settling { ticket with delivered := 10 } 9, false) := by
  refine ⟨?_, ?_, ?_, ?_, ?_⟩ <;> decide +kernel
/-- O24: the owners when a station is lost. -/
theorem test_witness_ObjectsAreLost :
    ((site.objectLost .set 0).setStateOf 0 = some .lost) ∧
      (((siteChannel (.flowing ticket)).objectLost .set 0).channel 0).map (fun x => x.state) =
        some (.halted { ticket with gaugeLost := true, halt := some 0 } .gaugeLost) ∧
      (((siteChannel (.flowing ticket)).objectLost .bowser 0).channel 0).map (fun x => x.state) =
        some (.settling { ticket with meterLost := true } 600) ∧
      (((siteStage (change .preparing .none none)).objectLost .board 0).stage 0).map (fun x => (x.state, x.lost)) =
        some (.fed .a, true) ∧
      (((siteStage (change .dead .none none)).objectLost .board 0).stage 0).map (fun x => (x.state, x.lost)) =
        some (change .dead .none none, true) := by
  refine ⟨?_, ?_, ?_, ?_, ?_⟩ <;> decide +kernel
/-- O30: outcomes of engine commands the set waits for. -/
theorem test_witness_EngineOutcomes :
    let waiting (q : SetState) : State := siteSet { hired q .off 0 with awaited := some 4 };
    let seen (q : SetState) (o : Order) (e : CommandOutcome) : Option (SetState × Option SetTimer) :=
      ((waiting q).engineOutcome (queued 4 o .routine true) e).set 0 |>.map fun r => (r.state, r.timer);
    seen (.cranking 1 .crank) .startEngine .done = some (.cranking 1 .crank, some ⟨.crank, 150⟩) ∧
      seen (.cranking 1 .crank) .startEngine .noAnswer = some (.cranking 1 .rest, some ⟨.crankRest, 100⟩) ∧
      seen (.cranking 1 .rest) .stopEngine .noAnswer = some (.faulted .stopFailed, none) ∧
      seen .cooling .stopEngine .done = some (.cooling, none) ∧
      seen (.faulted .noStart) .clearShutdown .done = some (.faulted .offWhileFeeding, none) ∧
      seen .warming .startEngine .done = some (.warming, none) := by
  refine ⟨?_, ?_, ?_, ?_, ?_, ?_⟩ <;> decide +kernel
/-- O32: outcomes of pump commands; 4 is the serial of the halt that the delivery waits for. -/
theorem test_witness_PumpOutcomes :
    let halting : Delivery := { ticket with halt := some 4 };
    let seen (q : ChannelState) (n : Nat) (o : Order) (e : CommandOutcome) : Option ChannelState :=
      ((siteChannel q).pumpOutcome (queued n o .safety true) e).channel 0 |>.map fun x => x.state;
    seen (.halted halting .hold) 4 .pumpHalt .done = some (.halted { halting with haltConfirmed := true } .hold) ∧
      seen (.halted halting .hold) 5 .pumpHalt .done = some (.halted halting .hold) ∧
      seen (.settling halting 9) 4 .pumpHalt .noAnswer = some (.settling { halting with halt := some 0 } 9) ∧
      seen (.flowing ticket) 4 .pumpRun .noAnswer = some (.halted ticket .hold) ∧
      seen (.settling ticket 9) 4 .pumpRun .done = some (.settling { ticket with halt := some 0 } 9) := by
  refine ⟨?_, ?_, ?_, ?_, ?_⟩ <;> decide +kernel
/-- O37: sets that become feeding. -/
theorem test_witness_BecomeFeeding :
    let seen (q : SetState) : Option SetState := ((siteSet (hired q .running 0)).becomeFeeding 0).set 0 |>.map fun r => r.state;
    seen .stopped = some (.faulted .offWhileFeeding) ∧ seen (.cranking 2 .rest) = some (.faulted .offWhileFeeding) ∧
      seen .warming = some .online ∧ seen .cooling = some .online ∧ seen (.lost .online) = some (.lost .online) ∧
      site.feeding 0 = true ∧ site.feeding 1 = false := by
  refine ⟨?_, ?_, ?_, ?_, ?_, ?_, ?_⟩ <;> decide +kernel
/-- O38: outcomes of board commands and of a meter's READ COUNTERS. -/
theorem test_witness_StepOutcomes :
    let seen (q : ChangeStep) (n : Nat) (o : CommandOutcome) : Option (Option ChangeStep) :=
      let s := (siteStage (change q (.offered 4) none)).boardOutcome (queued n (.openInput .a) .sequence true) o;
      s.stage 0 |>.map fun x => match x.state with | .changing c => some c.step | _ => none;
    let listed : State := { site with
      stages := site.stages.modify 0 fun x =>
        { x with state := .changing ⟨.requested, some .a, .b, .boundary, some 300, [⟨0, 4, .awaitingReading⟩], .none, false, none, .zero⟩ } };
    let read (o : CommandOutcome) := listed.countersOutcome (queued 4 .readCounters .sequence true) o;
    seen .opening 4 .done = some (some .opening) ∧ seen .opening 4 .noAnswer = some none ∧
      seen .closing 4 .noAnswer = some (some .reverting) ∧ seen .opening 5 .noAnswer = some (some .opening) ∧
      (((read .done).context 0).map fun c => c.stations) = some [⟨0, 4, .awaitingBilling⟩] ∧
      (read .done).told = [.bill (.stream 0)] ∧
      (((read .noAnswer).context 0).map fun c => c.stations) = some [⟨0, 4, .ended⟩] ∧
      (((read .done).boundaryEnded ⟨0, 0, some 0, 300, 4⟩).context 0).map (fun c => c.stations) = some [⟨0, 4, .ended⟩] := by
  refine ⟨?_, ?_, ?_, ?_, ?_, ?_, ?_, ?_⟩ <;> decide +kernel
/-- O47: a close with no circuit to bill takes its final step at once; a sweep and a stream at their ends. -/
theorem test_witness_SourcesGoOn :
    (start.billing.sweep = none ∧ start.period.close = none ∧ start.billing.waiters = [] ∧ start.billing.inFlight = [] ∧
        start.billing.circuits.cells.all (fun r => r.state == .unread) = true) ∧
      (let s : State := { start with billing.sweep := some ⟨.timed, 96⟩ };
        (s.continueSource .sweep).billing.sweep = none) ∧
      (let s : State := { start with billing.sweep := some ⟨.timed, 96⟩, billing.closingCalled := true };
        (s.continueSource .sweep).billing.sweep = some ⟨.closing, 0⟩) ∧
      (let s : State := { start with billing.streams := start.billing.streams.set 0 ⟨[⟨0, 0, some 0, 300, 4⟩], 8⟩ };
        (s.continueSource (.stream 0)).told = [.boundaryEnded ⟨0, 0, some 0, 300, 4⟩, .bill (.stream 0)]) ∧
      ((metered.reach .sweep 0).tally.work.length = 1 ∧ (metered.circuit 0).map (fun r => r.state) = some .current) := by
  refine ⟨?_, ?_, ?_, ?_, ?_⟩ <;> decide +kernel
/-- O42: syndromes of each kind. -/
theorem test_witness_Syndromes :
    readWord (be 8 0 ++ [~~~(0x07 : Byte)]) = .corrected 1 ∧ readWord (be 8 0 ++ [~~~(0x80 : Byte)]) = .corrected 0 ∧
      readWord (be 8 0 ++ [~~~(0x03 : Byte)]) = .uncorrectable := by decide +kernel
/-- O48, O49: sections TAKEN, copied, dropped and replaced. -/
theorem test_witness_SectionsAreKept :
    let one := planSection 1 [0, 9];
    let five := planSection 5 [3];
    let nine := planSection 9 [3];
    keepFirst [] [one, nine, five, planSection 1 [0, 8]] = [one, five] ∧ putSection (planSection 1 [0, 7]) [one, five] =
        [planSection 1 [0, 7], five] ∧ putSection five [one] = [one, five] ∧
      ([one, five] = [one] ++ five :: [] ∧ (∀ y ∈ [one], (y.headD 0).toNat ≠ 5) ∧ decisionOf five = .taken) ∧
      start.planSections = [] ∧ siteFor [one] = 9 := by
  refine ⟨?_, ?_, ?_, ?_, ?_, ?_⟩ <;> decide +kernel
/-- O48: the defaults of SITE, TALLY and SWEEP where other sections are taken. -/
theorem test_witness_SectionsNotTaken :
    let xs := [planSection 2 [1, 5, 0, 4, 0]];
    let t := State.reset.applySections xs;
    takenData xs 1 = none ∧ takenData xs 5 = none ∧ takenData xs 6 = none ∧ (t.set 4).isSome = true ∧ t.loader.site = 0 ∧
      (t.tally.bank0, t.tally.bank1, t.clock.interval, t.clock.limit) = (true, false, 300, 250000) := by
  refine ⟨?_, ?_, ?_, ?_, ?_, ?_⟩ <;> decide +kernel

/-- The machine right after reset meets the hypothesis of each statement about what every step keeps; each of them also
needs one next state. -/
theorem test_witness_StepKeeps :
    step State.reset = .next State.reset ∧ State.reset.yard.bounded ∧ State.reset.office.bounded ∧ State.reset.line.bounded ∧
      State.reset.memoriesCanonical ∧ State.reset.clock.inRange ∧ State.reset.deliveries.accounted ∧
      State.reset.period.placesKept :=
  ⟨rfl, ⟨by decide, by decide⟩, ⟨by decide, by decide⟩, ⟨by decide, by decide⟩, ⟨by decide, by decide⟩,
    ⟨by decide, by decide⟩, by unfold Deliveries.accounted; decide, by unfold Period.placesKept; decide⟩
end

end Sys2Proof.Machine.Tests
end

section
/-! PROOFS. The access windows (03): what a window matches, which window governs, WRITE WINDOW and READ WINDOW. -/

namespace Sys2Proof

/-! ### The first entry of a table that passes, with its number -/

/-- A search through the numbered entries gives the lowest-numbered entry that passes. -/
theorem Table.find?_zipIdx_eq_some {n : Nat} {α : Type} (t : Table n α) (p : α → Bool) (k : Nat) (x : α) :
    t.cells.zipIdx.find? (fun y => p y.1) = some (x, k) ↔
      t.get k = some x ∧ p x = true ∧ ∀ j < k, ∀ v, t.get j = some v → p v = false := by
  simp only [Table.get, List.find?_eq_some_iff_getElem, List.getElem_zipIdx, List.length_zipIdx, Prod.mk.injEq,
    Nat.zero_add, List.getElem?_eq_some_iff, Bool.not_eq_true']
  constructor
  · rintro ⟨hp, _, hk, ⟨hx, rfl⟩, hlow⟩
    exact ⟨⟨hk, hx⟩, hp, fun j hj v ⟨_, hv⟩ => hv ▸ hlow j hj⟩
  · rintro ⟨⟨hk, hx⟩, hp, hlow⟩
    exact ⟨hp, k, hk, ⟨hx, rfl⟩, fun j hj => hlow j hj _ ⟨Nat.lt_trans hj hk, rfl⟩⟩

/-- It gives nothing exactly where no entry passes. -/
theorem Table.find?_zipIdx_eq_none {n : Nat} {α : Type} (t : Table n α) (p : α → Bool) :
    t.cells.zipIdx.find? (fun y => p y.1) = none ↔ ∀ k x, t.get k = some x → p x = false := by
  simp only [Table.get, List.find?_eq_none, Bool.not_eq_true]
  constructor
  · exact fun h k x hx => h (x, k) (List.mem_zipIdx_iff_getElem?.2 hx)
  · exact fun h y hy => h y.2 y.1 (List.mem_zipIdx_iff_getElem?.1 hy)

end Sys2Proof

namespace Sys2Proof.Machine

/-! ### Matching -/

/-- R32: equality outside the mask, bit by bit. -/
theorem maskedEq_iff {w : Nat} (a base mask : BitVec w) :
    maskedEq a base mask = true ↔ ∀ i < w, mask.getLsbD i = false → a.getLsbD i = base.getLsbD i := by
  rw [maskedEq, beq_iff_eq, BitVec.eq_of_getLsbD_eq_iff]
  refine forall₂_congr fun i hi => ?_
  simp only [BitVec.getLsbD_and, BitVec.getLsbD_xor, BitVec.getLsbD_not, BitVec.getLsbD_zero, hi, decide_true,
    Bool.true_and]
  cases mask.getLsbD i <;> simp

/-- The bits of a number that a window of width `w` looks at. -/
theorem maskedEq_ofNat_iff {w : Nat} (n : Nat) (base mask : BitVec w) :
    maskedEq (BitVec.ofNat w n) base mask = true ↔
      ∀ i < w, mask.getLsbD i = false → n.testBit i = base.getLsbD i := by
  rw [maskedEq_iff]
  refine forall₂_congr fun i hi => ?_
  rw [BitVec.getLsbD_ofNat, decide_eq_true hi, Bool.true_and]

theorem AccountWindow.lists_iff (w : AccountWindow) (r : Role) :
    w.lists r = true ↔ r = .crew ∧ w.crew = true ∨ r = .office ∧ w.office = true ∨ r = .engine ∧ w.engine = true := by
  cases r <;> simp [lists]

theorem SetWindow.lists_iff (w : SetWindow) (r : Role) :
    w.lists r = true ↔ r = .crew ∧ w.crew = true ∨ r = .office ∧ w.office = true ∨ r = .auto ∧ w.auto = true := by
  cases r <;> simp [lists]

theorem AccountWindow.matches_iff (w : AccountWindow) (r : Role) (a : Nat) :
    w.matches r a = true ↔
      w.enabled = true ∧
        (r = .crew ∧ w.crew = true ∨ r = .office ∧ w.office = true ∨ r = .engine ∧ w.engine = true) ∧
        ∀ i < 10, w.mask.getLsbD i = false → a.testBit i = w.base.getLsbD i := by
  rw [AccountWindow.matches, Bool.and_eq_true, Bool.and_eq_true, lists_iff, maskedEq_ofNat_iff, and_assoc]

theorem SetWindow.matches_iff (w : SetWindow) (r : Role) (a : Nat) :
    w.matches r a = true ↔
      w.enabled = true ∧
        (r = .crew ∧ w.crew = true ∨ r = .office ∧ w.office = true ∨ r = .auto ∧ w.auto = true) ∧
        ∀ i < 4, w.mask.getLsbD i = false → a.testBit i = w.base.getLsbD i := by
  rw [SetWindow.matches, Bool.and_eq_true, Bool.and_eq_true, lists_iff, maskedEq_ofNat_iff, and_assoc]

/-! ### Governing -/

/-- R33: the governing window is the lowest-numbered one that matches. -/
theorem Windows.governing_eq_some (ws : Windows) (r : Role) (a k : Nat) (w : AccountWindow) :
    ws.governing r a = some (k, w) ↔
      ws.account.get k = some w ∧ w.matches r a = true ∧
        ∀ j < k, ∀ v, ws.account.get j = some v → v.matches r a = false := by
  rw [← Table.find?_zipIdx_eq_some ws.account (fun v => v.matches r a)]
  simp [governing, Option.map_eq_some_iff]

theorem Windows.governing_eq_none (ws : Windows) (r : Role) (a : Nat) :
    ws.governing r a = none ↔ ∀ k w, ws.account.get k = some w → w.matches r a = false := by
  rw [← Table.find?_zipIdx_eq_none ws.account (fun v => v.matches r a), governing, Option.map_eq_none_iff]

/-- R37: set windows are named by the window indices 4 and 5. -/
theorem Windows.governingSet_eq_some (ws : Windows) (r : Role) (a k : Nat) (w : SetWindow) :
    ws.governingSet r a = some (k + 4, w) ↔
      ws.sets.get k = some w ∧ w.matches r a = true ∧
        ∀ j < k, ∀ v, ws.sets.get j = some v → v.matches r a = false := by
  rw [← Table.find?_zipIdx_eq_some ws.sets (fun v => v.matches r a)]
  simp [governingSet, Option.map_eq_some_iff]

/-! ### What the governing window decides -/

/-- R34, R35: the governing window denies, and no other. -/
theorem Windows.denies_eq_some (ws : Windows) (r : Role) (a k : Nat) :
    ws.denies r a = some k ↔ ∃ w, ws.governing r a = some (k, w) ∧ w.deny = true := by
  unfold denies
  cases ws.governing r a with
  | none => simp
  | some g => simp [Prod.ext_iff, and_comm]

/-- R38, R39. -/
theorem Windows.deniesSet_eq_some (ws : Windows) (r : Role) (a k : Nat) :
    ws.deniesSet r a = some k ↔ ∃ w, ws.governingSet r a = some (k, w) ∧ w.deny = true := by
  unfold deniesSet
  cases ws.governingSet r a with
  | none => simp
  | some g => simp [Prod.ext_iff, and_comm]

theorem Windows.mode_of_governing {ws : Windows} {a k : Nat} {w : AccountWindow}
    (h : ws.governing .engine a = some (k, w)) : ws.mode a = w.mode := by
  rw [mode, h]

theorem Windows.mode_of_none {ws : Windows} {a : Nat} (h : ws.governing .engine a = none) : ws.mode a = .through := by
  rw [mode, h]

theorem Windows.tag_of_governing {ws : Windows} {a k : Nat} {w : AccountWindow}
    (h : ws.governing .engine a = some (k, w)) : ws.tag a = w.tag := by
  rw [tag, h]

theorem Windows.tag_of_none {ws : Windows} {a : Nat} (h : ws.governing .engine a = none) : ws.tag a = 0 := by
  rw [tag, h]

/-- Settles O15: each clause is a lemma about the function of the Window check that it speaks of. -/
theorem lowestMatchingWindowGoverns : Obligations.LowestMatchingWindowGoverns :=
  ⟨fun w r a _ => w.matches_iff r a, fun w r a _ => w.matches_iff r a, Windows.governing_eq_some,
    Windows.governing_eq_none, Windows.governingSet_eq_some, Windows.denies_eq_some, Windows.deniesSet_eq_some,
    fun _ _ h => ⟨Windows.mode_of_none h, Windows.tag_of_none h⟩,
    fun _ _ _ _ h => ⟨Windows.mode_of_governing h, Windows.tag_of_governing h⟩⟩

/-! ### Payload fields -/

/-- A number in each field of a fixed layout, high byte first. -/
def encodeFields (xs : List (Nat × Nat)) : List Byte := xs.flatMap fun x => be x.1 x.2

theorem length_encodeFields (xs : List (Nat × Nat)) : (encodeFields xs).length = (xs.map Prod.fst).sum := by
  simp [encodeFields, List.length_flatMap]

theorem fieldValues_encodeFields {xs : List (Nat × Nat)} (h : ∀ x ∈ xs, x.2 < 256 ^ x.1) :
    fieldValues (xs.map Prod.fst) (encodeFields xs) = xs.map Prod.snd := by
  induction xs with
  | nil => rfl
  | cons x xs ih =>
    obtain ⟨hx, hxs⟩ := List.forall_mem_cons.1 h
    rw [encodeFields, List.flatMap_cons, List.map_cons, fieldValues_be, Nat.mod_eq_of_lt hx, ← encodeFields, ih hxs,
      List.map_cons]

/-- R6, check 4: a payload that spells a number in each field of its layout gives these numbers. -/
theorem parse_encodeFields {xs : List (Nat × Nat)} (h : ∀ x ∈ xs, x.2 < 256 ^ x.1) :
    (Layout.fixed (xs.map Prod.fst)).parse (encodeFields xs) = .ok (xs.map Prod.snd) := by
  rw [Layout.parse, parseFixed_of_length (length_encodeFields xs), fieldValues_encodeFields h]

/-! ### WRITE WINDOW -/

/-- What holds after a refusal or after acceptance may be weakened in both. -/
theorem FirstDecides.imp {checks : List (Bool × Reply)} {refused refused' : Reply → Prop} {accepted accepted' : Prop}
    (h : FirstDecides checks refused accepted) (hr : ∀ r, refused r → refused' r) (ha : accepted → accepted') :
    FirstDecides checks refused' accepted' :=
  have ⟨hfirst, hnone⟩ := h
  ⟨fun before r after e hb => hr r (hfirst before r after e hb), fun hn => ha (hnone hn)⟩

theorem bitOf_eq_testBit (n i : Nat) : bitOf n i = n.testBit i := by
  rw [bitOf, Nat.testBit_eq_decide_div_mod_eq]
  rfl

theorem modeOf_eq (n : Nat) : modeOf n = if n = 0 then .held else if n = 1 then .through else .direct := by
  match n with
  | 0 => rfl
  | 1 => rfl
  | n + 2 => simp [modeOf]

/-- R40: the checks of WRITE WINDOW in the order of its fields. -/
def windowChecks (k : Nat) (f : WindowFields) : List (Bool × Reply) :=
  [(decide (5 < k), refuse .range 1),
    (decide (1 < f.enabled), refuse .range 2),
    (decide ((if k < 4 then 1023 else 11) < f.base), refuse .range 3),
    (decide ((if k < 4 then 1023 else 15) < f.mask), refuse .range 4),
    (decide (7 < f.roles), refuse .range 5),
    (decide (1 < f.deny), refuse .range 6),
    (decide ((if k < 4 then 2 else 0) < f.mode), refuse .range 7),
    (decide ((if k < 4 then 3 else 0) < f.tag), refuse .range 8)]

/-- R41: what an accepted WRITE WINDOW does: the write-back of an account window joins the work list, a set window is
answered at once. -/
def acceptWindow (k : Nat) (f : WindowFields) (s : State) : Answered :=
  let s := { s with windows := s.windows.write k f }
  if k < 4 then ({ s with tally.work := s.tally.work ++ [.windowWriteBack .writeBack 0] }, none) else done s []

theorem unlessRefused_nil (s : State) (act : Answered) : unlessRefused s [] act = act := rfl

theorem unlessRefused_cons (s : State) (b : Bool) (r : Reply) (checks : List (Bool × Reply)) (act : Answered) :
    unlessRefused s ((b, r) :: checks) act = if b then (s, some r) else unlessRefused s checks act := by
  cases b <;> rfl

/-- A limit of set windows and one of account windows, told apart by either of the two tests of the window's number. -/
theorem ite_four_le (k x y : Nat) : (if 4 ≤ k then x else y) = if k < 4 then y else x := by
  simp only [← Nat.not_lt, ite_not]

theorem elim_ite_some {α β : Type} (c : Prop) [Decidable c] (x : α) (o : Option α) (y : β) (g : α → β) :
    (if c then some x else o).elim y g = if c then g x else o.elim y g := by
  split <;> rfl

/-- R40: the window number is judged first, then fields 2 to 8. -/
theorem ownWriteWindow_eq_elim (fields : List Nat) (s : State) :
    ownWriteWindow fields s =
      if 5 < arg fields 1 then (s, some (refuse .range 1))
      else ((windowFields fields).firstBad (arg fields 1)).elim (acceptWindow (arg fields 1) (windowFields fields) s)
        fun field => (s, some (refuse .range field)) := by
  rw [ownWriteWindow]
  cases (windowFields fields).firstBad (arg fields 1) <;> rfl

/-- R40, R41: WRITE WINDOW as its owner judges it. -/
theorem ownWriteWindow_eq (fields : List Nat) (s : State) :
    ownWriteWindow fields s =
      unlessRefused s (windowChecks (arg fields 1) (windowFields fields))
        (acceptWindow (arg fields 1) (windowFields fields) s) := by
  simp only [ownWriteWindow_eq_elim, WindowFields.firstBad, windowChecks, unlessRefused_cons, unlessRefused_nil,
    decide_eq_true_eq, ite_four_le, elim_ite_some, Option.elim_none]

theorem exec_writeWindow (p : Port) (s : State) : exec (.writeWindow p) s = ends (serve p .writeWindow ownWriteWindow s) :=
  rfl

theorem exec_readWindow (p : Port) (s : State) : exec (.readWindow p) s = ends (serve p .readWindow ownReadWindow s) :=
  rfl

/-- The fields of a WRITE WINDOW with their widths in bytes (03, section 3.5). -/
def windowPayload (k : Nat) (f : WindowFields) : List (Nat × Nat) :=
  [(1, k), (1, f.enabled), (2, f.base), (2, f.mask), (1, f.roles), (1, f.deny), (1, f.mode), (1, f.tag)]

theorem encodeFields_windowPayload (k : Nat) (f : WindowFields) :
    encodeFields (windowPayload k f) = be 1 k ++ f.bytes := by
  simp [encodeFields, windowPayload, WindowFields.bytes]

/-- R40, R41: an offered WRITE WINDOW is judged by `windowChecks`, its fields read from the payload. -/
theorem exec_writeWindow_offered {s : State} {tag : Byte} {k : Nat} {f : WindowFields}
    (hfit : ∀ x ∈ windowPayload k f, x.2 < 256 ^ x.1) (h : Offered s .office 0x18 tag (be 1 k ++ f.bytes)) :
    exec (.writeWindow .office) s =
      .next (deliver .office (unlessRefused (s.judged .office) (windowChecks k f)
        (acceptWindow k f (s.judged .office)))).transmit := by
  have hparse : RequestRow.writeWindow.layout.parse (be 1 k ++ f.bytes) = .ok ((windowPayload k f).map Prod.snd) := by
    rw [← encodeFields_windowPayload]
    exact parse_encodeFields hfit
  rw [exec_writeWindow, serve_of_offered h rfl hparse, ownWriteWindow_eq]
  rfl

/-- R41: a window's fields as the statements write them. -/
theorem WindowFields.account_eq (f : WindowFields) :
    f.account = ⟨f.enabled == 1, BitVec.ofNat 10 f.base, BitVec.ofNat 10 f.mask, f.roles.testBit 0, f.roles.testBit 1,
      f.roles.testBit 2, f.deny == 1, if f.mode = 0 then .held else if f.mode = 1 then .through else .direct,
      BitVec.ofNat 2 f.tag⟩ := by
  simp only [account, bitOf_eq_testBit, modeOf_eq]

theorem WindowFields.set_eq (f : WindowFields) :
    f.set = ⟨f.enabled == 1, BitVec.ofNat 4 f.base, BitVec.ofNat 4 f.mask, f.roles.testBit 0, f.roles.testBit 1,
      f.roles.testBit 2, f.deny == 1⟩ := by
  simp only [set, bitOf_eq_testBit]

theorem Windows.write_account (ws : Windows) {k : Nat} (f : WindowFields) (hk : k < 4) :
    ws.write k f = { ws with account := ws.account.set k f.account } :=
  if_pos hk

theorem Windows.write_set (ws : Windows) {k : Nat} (f : WindowFields) (hk : 4 ≤ k) :
    ws.write k f = { ws with sets := ws.sets.set (k - 4) f.set } :=
  if_neg (by omega)

/-- R41, R42: an accepted account window is not answered; its write-back joins the work list. -/
theorem deliver_acceptWindow_account (p : Port) {k : Nat} (f : WindowFields) (s : State) (hk : k < 4) :
    deliver p (acceptWindow k f s) =
      { s with
        windows := { s.windows with account := s.windows.account.set k f.account }
        tally := { s.tally with work := s.tally.work ++ [.windowWriteBack .writeBack 0] } } := by
  rw [acceptWindow, if_pos hk, deliver_none, Windows.write_account _ f hk]

/-- R41: an accepted set window is answered DONE at once. -/
theorem deliver_acceptWindow_set (p : Port) {k : Nat} (f : WindowFields) (s : State) (hk : 4 ≤ k) :
    deliver p (acceptWindow k f s) =
      ({ s with windows := { s.windows with sets := s.windows.sets.set (k - 4) f.set } } : State).answer p (.done []) := by
  rw [acceptWindow, if_neg (by omega), deliver_done, Windows.write_set _ f hk]

/-! ### READ WINDOW -/

/-- R43: an offered READ WINDOW, on either port: the number's check, then the window's fields. -/
theorem exec_readWindow_offered {s : State} {p : Port} {tag : Byte} {k : Nat} (hk : k < 256)
    (h : Offered s p 0x19 tag (be 1 k)) :
    exec (.readWindow p) s =
      if 5 < k then .next ((s.judged p).replied p (.refused .range 1 0xFF))
      else .next ((s.judged p).didReply p (be 1 k ++ (s.windows.fieldsOf k).bytes)) := by
  have hparse : RequestRow.readWindow.layout.parse (be 1 k) = .ok [k] := by
    simpa [encodeFields, RequestRow.readWindow] using parse_encodeFields (xs := [(1, k)]) (by simpa using hk)
  have hport : RequestRow.readWindow.allowedOn p = true := by cases p <;> rfl
  rw [exec_readWindow, serve_of_offered h hport hparse, ownReadWindow, unlessRefused_cons, unlessRefused_nil]
  by_cases h5 : 5 < k
  · simp [arg, h5, deliver_some, ends, State.replied, refuse]
  · simp [arg, h5, deliver_done, ends, State.replied, State.didReply]

/-- R43: the bits of the roles byte. -/
theorem flagBits_three (a b c : Bool) : flagBits [a, b, c] = flag a + 2 * flag b + 4 * flag c := by
  simp only [flagBits]
  omega

theorem Windows.fieldsOf_account {ws : Windows} {k : Nat} {w : AccountWindow} (hk : k < 4)
    (hw : ws.account.get k = some w) : ws.fieldsOf k = w.fields := by
  rw [fieldsOf, if_pos hk, hw, Option.getD_some]

theorem Windows.fieldsOf_set {ws : Windows} {k : Nat} {w : SetWindow} (hk : 4 ≤ k)
    (hw : ws.sets.get (k - 4) = some w) : ws.fieldsOf k = w.fields := by
  rw [fieldsOf, if_neg (by omega), hw, Option.getD_some]

/-- Settles O16: WRITE WINDOW by its checks and what acceptance does, READ WINDOW by the number's check and the fields of
the window of either kind. -/
theorem windowsAreWrittenAndRead : Obligations.WindowsAreWrittenAndRead := by
  refine ⟨?_, ?_⟩
  · intro s tag k enabled base mask roles deny mode mark_ hk henabled hbase hmask hroles hdeny hmode hmark payload h t
    have hexec := exec_writeWindow_offered (k := k) (f := ⟨enabled, base, mask, roles, deny, mode, mark_⟩)
      (by simp [windowPayload, *]) (by simpa [payload, WindowFields.bytes] using h)
    refine FirstDecides.imp (firstDecides_of (fun a => exec (.writeWindow .office) s = .next (deliver .office a).transmit)
      hexec) (fun _ => id) fun haccepted => ⟨fun hk4 => ?_, fun hk4 => ?_⟩
    · rw [haccepted, deliver_acceptWindow_account _ _ _ hk4, WindowFields.account_eq]
      rfl
    · rw [haccepted, deliver_acceptWindow_set _ _ _ hk4, WindowFields.set_eq]
      rfl
  · intro s p tag k hk h t
    have hexec := exec_readWindow_offered hk h
    refine ⟨fun h5 => ?_, fun w hk4 hw => ?_, fun w hk4 hw => ?_⟩
    · rw [hexec, if_pos h5]
    · rw [hexec, if_neg (by omega), Windows.fieldsOf_account hk4 hw]
      simp only [AccountWindow.fields, WindowFields.bytes, flagBits_three, List.append_assoc]
      rfl
    · have hk5 : k - 4 < 2 := s.windows.sets.lt_of_get hw
      rw [hexec, if_neg (by omega), Windows.fieldsOf_set hk4 hw]
      simp only [SetWindow.fields, WindowFields.bytes, flagBits_three, List.append_assoc]
      rfl

end Sys2Proof.Machine
end

section
/-! PROOFS. Reads of tally memory (10): the outcome of a read, what a corrected and an uncorrectable read do, READ TALLY
FAULT. -/

namespace Sys2Proof

/-! ### The first number below a bound whose value passes -/

theorem findIdx?_map_range_eq_some {α : Type} {n k : Nat} (w : Nat → α) (p : α → Bool) (hk : k < n) :
    ((List.range n).map w).findIdx? p = some k ↔ p (w k) = true ∧ ∀ j < k, p (w j) = false := by
  simp [List.findIdx?_eq_some_iff_getElem, hk]

theorem findIdx?_map_range_eq_none {α : Type} {n : Nat} (w : Nat → α) (p : α → Bool) :
    ((List.range n).map w).findIdx? p = none ↔ ∀ k < n, p (w k) = false := by
  simp [List.findIdx?_eq_none_iff]

end Sys2Proof

namespace Sys2Proof.Machine

/-! ### The outcome of a read -/

/-- 10, section 10.2: the record that six words spell is made of these words. -/
theorem words_recordOf (w0 w1 w2 w3 w4 w5 : BitVec 64) :
    (recordOf w0 w1 w2 w3 w4 w5).words = [w0, w1, w2, w3, w4, w5] := by
  have halves (w : BitVec 64) : w.extractLsb' 32 32 ++ w.extractLsb' 0 32 = w := by
    rw [BitVec.extractLsb'_append_extractLsb'_eq_extractLsb' (by rfl : 32 = 0 + 32), BitVec.extractLsb'_eq_self]
  have fields (w : BitVec 64) :
      w.extractLsb' 24 40 ++ w.extractLsb' 16 8 ++ w.extractLsb' 14 2 ++ w.extractLsb' 0 14 = w := by
    rw [BitVec.extractLsb'_append_extractLsb'_eq_extractLsb' (by rfl : 24 = 16 + 8),
      BitVec.extractLsb'_append_extractLsb'_eq_extractLsb' (by rfl : 16 = 14 + 2),
      BitVec.extractLsb'_append_extractLsb'_eq_extractLsb' (by rfl : 14 = 0 + 14), BitVec.extractLsb'_eq_self]
  simp only [AccountRecord.words, recordOf, halves, fields]

/-- R178: the word gives these data, as they stand or corrected. -/
def WordRead.Gives (x : WordRead) (d : BitVec 64) : Prop := x = .good d ∨ x = .corrected d

theorem WordRead.Gives.data_eq {x : WordRead} {d : BitVec 64} (h : x.Gives d) : x.data = d := by
  rcases h with rfl | rfl <;> rfl

theorem WordRead.Gives.ne_uncorrectable {x : WordRead} {d : BitVec 64} (h : x.Gives d) :
    (x == .uncorrectable) = false := by
  rcases h with rfl | rfl <;> rfl

theorem WordRead.Gives.wasCorrected_eq {x : WordRead} {d : BitVec 64} (h : x.Gives d) :
    x.wasCorrected = (x == .corrected d) := by
  rcases h with rfl | rfl
  · rfl
  · exact (beq_self_eq_true _).symm

/-- R179: the lowest uncorrectable word decides, whatever the others show. -/
theorem judgeWords_of_uncorrectable {w : Nat → WordRead} {k : Nat} (hk : k < 6) (hw : w k = .uncorrectable)
    (hlow : ∀ j < k, w j ≠ .uncorrectable) : judgeWords ((List.range 6).map w) = .uncorrectable k := by
  have hfirst : ((List.range 6).map w).findIdx? (fun x => x == .uncorrectable) = some k :=
    (findIdx?_map_range_eq_some w _ hk).2 ⟨beq_iff_eq.2 hw, fun j hj => beq_eq_false_iff_ne.2 (hlow j hj)⟩
  rw [judgeWords, hfirst]

/-- R179: where every word gives its data, the outcome is the record that the data spell, corrected where a word was. -/
theorem judgeWords_of_gives {w : Nat → WordRead} {d : Nat → BitVec 64} (h : ∀ k < 6, (w k).Gives (d k)) :
    judgeWords ((List.range 6).map w) =
      let r := recordOf (d 0) (d 1) (d 2) (d 3) (d 4) (d 5)
      (((List.range 6).map w).findIdx? WordRead.wasCorrected).elim (.good r)
        (.corrected r ((List.range 6).filter fun k => w k == .corrected (d k)).length) := by
  have hreadable : ((List.range 6).map w).findIdx? (fun x => x == .uncorrectable) = none :=
    (findIdx?_map_range_eq_none w _).2 fun k hk => (h k hk).ne_uncorrectable
  have hdata : ((List.range 6).map w).map WordRead.data = [d 0, d 1, d 2, d 3, d 4, d 5] := by
    rw [List.map_map]
    exact List.map_congr_left (g := d) fun k hk => (h k (List.mem_range.1 hk)).data_eq
  have hcount : ((List.range 6).map w).countP WordRead.wasCorrected =
      ((List.range 6).filter fun k => w k == .corrected (d k)).length := by
    rw [List.countP_map, ← List.countP_eq_length_filter]
    exact List.countP_congr fun k hk => by rw [Function.comp, (h k (List.mem_range.1 hk)).wasCorrected_eq]
  simp only [judgeWords, hreadable, hdata, hcount]
  cases ((List.range 6).map w).findIdx? WordRead.wasCorrected <;> rfl

theorem judgeWords_of_good {w : Nat → WordRead} {d : Nat → BitVec 64} (h : ∀ k < 6, w k = .good (d k)) :
    judgeWords ((List.range 6).map w) = .good (recordOf (d 0) (d 1) (d 2) (d 3) (d 4) (d 5)) := by
  have hnone : ((List.range 6).map w).findIdx? WordRead.wasCorrected = none :=
    (findIdx?_map_range_eq_none w _).2 fun k hk => by rw [h k hk]; rfl
  rw [judgeWords_of_gives fun k hk => .inl (h k hk), hnone]
  rfl

theorem judgeWords_of_corrected {w : Nat → WordRead} {d : Nat → BitVec 64} (h : ∀ k < 6, (w k).Gives (d k)) {first : Nat}
    (hfirst : first < 6) (hw : w first = .corrected (d first)) (hlow : ∀ j < first, w j = .good (d j)) :
    judgeWords ((List.range 6).map w) =
      .corrected (recordOf (d 0) (d 1) (d 2) (d 3) (d 4) (d 5))
        ((List.range 6).filter fun k => w k == .corrected (d k)).length first := by
  have hsome : ((List.range 6).map w).findIdx? WordRead.wasCorrected = some first :=
    (findIdx?_map_range_eq_some w _ hfirst).2 ⟨by rw [hw]; rfl, fun j hj => by rw [hlow j hj]; rfl⟩
  rw [judgeWords_of_gives h, hsome]
  rfl

/-- R177: word `k` of a stored record as read. -/
def wordAt (bs : List Byte) (k : Nat) : WordRead := readWord ((bs.drop (9 * k)).take 9)

theorem readRecordBytes_eq (bs : List Byte) : readRecordBytes bs = judgeWords ((List.range 6).map (wordAt bs)) := rfl

/-! ### What a read does -/

/-- R182: a fault fills the empty latch, stamped by the clock, and is told. -/
theorem State.fillLatch_of_clock {s : State} {c : Clock} (h : s.clock = c) (uncorrectable : Bool) (a word : Nat)
    (op : ReadOp) (result : Nat) :
    s.fillLatch uncorrectable a word op result =
      ({ s with
        tally := { s.tally with
          fault := some ⟨uncorrectable, a, word, op, ⟨c.day, c.second⟩, false⟩ } } : State).post .tallyFault
        (be 1 (if uncorrectable then 2 else 1) ++ be 2 a ++ be 1 word ++ be 1 op.value ++ be 1 result) :=
  h ▸ rfl

/-- R180: the record is written back and its corrected words are counted. -/
def State.repaired (s : State) (a : Nat) (r : AccountRecord) (words : Nat) : State :=
  { s.writeRecord a r with tally := { s.tally with corrected := min (s.tally.corrected + words) 65535 } }

theorem State.repaired_clock (s : State) (a : Nat) (r : AccountRecord) (words : Nat) :
    (s.repaired a r words).clock = s.clock :=
  s.writeRecord_clock a r

/-- R180: a corrected read repairs and counts, and fills the latch where it is empty. -/
theorem State.readCorrected_eq (s : State) (a : Nat) (r : AccountRecord) (words first : Nat) (op : ReadOp) :
    s.readCorrected a r words first op =
      if s.tally.fault.isNone then (s.repaired a r words).fillLatch false a first op 0 else s.repaired a r words := by
  simp only [readCorrected, repaired, writeRecord_tally]

theorem State.readCorrected_of_locked {s : State} (h : s.tally.fault ≠ none) (a : Nat) (r : AccountRecord)
    (words first : Nat) (op : ReadOp) : s.readCorrected a r words first op = s.repaired a r words := by
  rw [readCorrected_eq, if_neg (by simpa using h)]

theorem State.readCorrected_of_empty {s : State} (h : s.tally.fault = none) (a : Nat) (r : AccountRecord)
    (words first : Nat) (op : ReadOp) :
    s.readCorrected a r words first op = (s.repaired a r words).fillLatch false a first op 0 := by
  rw [readCorrected_eq, if_pos (by simp [h])]

/-- R184: an account joins the quarantine list where the list has room. -/
def State.joinQuarantine (s : State) (a : Nat) : State :=
  { s with
    tally := { s.tally with
      quarantine := if s.tally.quarantine.length < 8 then s.tally.quarantine ++ [a] else s.tally.quarantine } }

theorem State.joinQuarantine_clock (s : State) (a : Nat) : (s.joinQuarantine a).clock = s.clock := rfl

theorem State.joinQuarantine_of_room {s : State} (h : s.tally.quarantine.length < 8) (a : Nat) :
    s.joinQuarantine a = { s with tally := { s.tally with quarantine := s.tally.quarantine ++ [a] } } := by
  rw [joinQuarantine, if_pos h]

theorem State.joinQuarantine_of_full {s : State} (h : ¬ s.tally.quarantine.length < 8) (a : Nat) :
    s.joinQuarantine a = s := by
  rw [joinQuarantine, if_neg h]

/-- R181: an uncorrectable read quarantines the account; it fills the empty latch with the result, and of a locked one it
only notes that more faults came. -/
theorem State.readFailed_eq (s : State) (a word : Nat) (op : ReadOp) :
    s.readFailed a word op =
      s.tally.fault.elim
        ((s.joinQuarantine a).fillLatch true a word op (if s.tally.quarantine.length < 8 then 1 else 2))
        fun l =>
          { s.joinQuarantine a with
            tally := { (s.joinQuarantine a).tally with fault := some { l with more := true } } } := by
  by_cases hroom : s.tally.quarantine.length < 8
  · rw [joinQuarantine_of_room hroom]
    cases h : s.tally.fault <;> simp [readFailed, Config.quarantineCap, hroom, h]
  · rw [joinQuarantine_of_full hroom]
    cases h : s.tally.fault <;> simp [readFailed, Config.quarantineCap, hroom, h]

theorem State.readFailed_of_empty {s : State} (h : s.tally.fault = none) (a word : Nat) (op : ReadOp) :
    s.readFailed a word op =
      (s.joinQuarantine a).fillLatch true a word op (if s.tally.quarantine.length < 8 then 1 else 2) := by
  rw [readFailed_eq, h, Option.elim_none]

theorem State.readFailed_of_locked {s : State} {l : TallyFault} (h : s.tally.fault = some l) (a word : Nat) (op : ReadOp) :
    s.readFailed a word op =
      { s.joinQuarantine a with tally := { (s.joinQuarantine a).tally with fault := some { l with more := true } } } := by
  rw [readFailed_eq, h, Option.elim_some]

/-! ### READ TALLY FAULT -/

theorem exec_readTallyFault (p : Port) (s : State) :
    exec (.readTallyFault p) s = ends (serve p .readTallyFault ownReadTallyFault s) :=
  rfl

/-- R183: a locked latch in 11 bytes, the stamp's four written out. -/
theorem tallyFaultBytes_some (l : TallyFault) :
    tallyFaultBytes (some l) =
      be 1 1 ++ be 1 (if l.uncorrectable then 2 else 1) ++ be 2 l.account ++ be 1 l.word ++ be 1 l.op.value ++
        be 1 l.stamp.day ++ be 3 l.stamp.second ++ be 1 (flag l.more) := by
  simp only [tallyFaultBytes, faultKindValue, Stamp.bytes, List.append_assoc]

/-- R183: an offered READ TALLY FAULT tells the latch, the count and the quarantine list, and empties the latch. -/
theorem exec_readTallyFault_offered {s : State} {tag : Byte} (h : Offered s .office 0x4C tag []) :
    exec (.readTallyFault .office) s =
      .next (({ s.judged .office with tally := { s.tally with fault := none } } : State).didReply .office
        (tallyFaultBytes s.tally.fault ++ be 2 s.tally.corrected ++ be 1 s.tally.quarantine.length ++
          (List.range 8).flatMap fun k => be 2 (s.tally.quarantine.getD k 0))) := by
  have hparse : RequestRow.readTallyFault.layout.parse [] = .ok [] := rfl
  rw [exec_readTallyFault, serve_of_offered h rfl hparse, ownReadTallyFault, deliver_done, State.judged_tally]
  rfl

/-- Settles O44: the outcome of a read from its words' judgements, a corrected and an uncorrectable read by the latch they
find, READ TALLY FAULT by its latch. -/
theorem tallyFaultsAreKept : Obligations.TallyFaultsAreKept := by
  refine ⟨fun bs => ?_, fun s a words first r op => ⟨?_, ?_⟩, fun s a word op => ⟨?_, ?_⟩, fun s tag h => ?_⟩
  · rw [readRecordBytes_eq]
    exact ⟨fun k hk => judgeWords_of_uncorrectable (w := wordAt bs) hk, fun d h =>
      ⟨recordOf (d 0) (d 1) (d 2) (d 3) (d 4) (d 5), words_recordOf .., judgeWords_of_good (w := wordAt bs),
        fun first => judgeWords_of_corrected (w := wordAt bs) h⟩⟩
  · exact fun hlocked => State.readCorrected_of_locked hlocked ..
  · intro hempty
    rw [State.readCorrected_of_empty hempty, State.fillLatch_of_clock (s.repaired_clock a r words)]
    rfl
  · intro hempty
    rw [State.readFailed_of_empty hempty, State.fillLatch_of_clock (s.joinQuarantine_clock a)]
    rfl
  · intro l hl
    rw [State.readFailed_of_locked hl]
    rfl
  · rw [exec_readTallyFault_offered h]
    cases hl : s.tally.fault with
    | none => rfl
    | some l =>
      rw [tallyFaultBytes_some]
      rfl

end Sys2Proof.Machine
end

section
/-! PROOFS. What every step keeps: every command keeps the laws of the device, and each StepKeeps statement is one law. -/

namespace Sys2Proof.Machine
namespace State.Sound

/-! ### Every command -/

/-- A step that ends keeps the laws where what it did before its end does. -/
theorem of_ends {s t u : State} (g : s.Sound u) (h : ends u = .next t) : s.Sound t := by
  cases h
  exact g.transmit

/-- A request whose owner keeps the laws, whatever its fields are. -/
theorem servedWhere {s t : State} {accepts : Frame → Bool} {p : Port} {row : RequestRow}
    {owner : List Nat → State → Answered} (ho : ∀ fields (u : State), u.Sound (owner fields u).1)
    (h : ends (Sys2Proof.Machine.serveWhere accepts p row owner s) = .next t) : s.Sound t :=
  of_ends ((refl s).serveWhere accepts p row owner fun _ fields u _ => ho fields u) h

theorem served {s t : State} {p : Port} {row : RequestRow} {owner : List Nat → State → Answered}
    (ho : ∀ fields (u : State), u.Sound (owner fields u).1) (h : ends (serve p row owner s) = .next t) : s.Sound t :=
  servedWhere ho h

/-- A request whose owner tells other blocks something. -/
theorem servedFinishing {s t : State} {p : Port} {row : RequestRow} {owner : List Nat → State → Answered}
    (ho : ∀ fields (u : State), u.Sound (owner fields u).1) (h : ends (serve p row (finishing owner) s) = .next t) :
    s.Sound t :=
  served (fun fields u => finished (ho fields u)) h

/-- Every command keeps the laws of the device. -/
theorem exec {s t : State} : ∀ c : Instr, Sys2Proof.Machine.exec c s = .next t → s.Sound t
  | .hardReset torn, rfl => hardReset s torn
  | .planLoaded, h => of_ends ((refl s).planLoaded.finish) h
  | .softReset, h => of_ends ((refl s).softReset.finish) h
  | .timeBaseStep, h => of_ends ((refl s).tick) h
  | .clockIncrement, h => of_ends ((refl s).clockIncrement) h
  | .sweepDue, h => of_ends ((refl s).sweepDue.finish) h
  | .wholeSecond, h => of_ends ((refl s).wholeSecond) h
  | .crankTimerExpiry _, h => of_ends (((refl s).crankTimerExpiry _).finish) h
  | .crankRestExpiry _, h => of_ends (((refl s).crankRestExpiry _).finish) h
  | .warmUpExpiry _, h => of_ends (((refl s).warmUpExpiry _).finish) h
  | .coolDownExpiry _, h => of_ends (((refl s).coolDownExpiry _).finish) h
  | .settleExpiry _, h => of_ends (((refl s).settleExpiry _).finish) h
  | .prepareExpiry _, h => of_ends (((refl s).prepareExpiry _).finish) h
  | .confirmExpiry _, h => of_ends (((refl s).confirmExpiry _).finish) h
  | .deadTimeExpiry _, h => of_ends (((refl s).deadTimeExpiry _).finish) h
  | .frameComplete _ _, h => of_ends ((refl s).receive _ _) h
  | .frameGap _ _, h => of_ends ((refl s).breakOff _ _) h
  | .frameTransmitted _, h => of_ends ((refl s).sent _) h
  | .unknownRequest _, h => of_ends ((refl s).refuseUnknown _) h
  | .identify _ _, h => served (ownIdentify _) h
  | .resetPart _, h => served ownResetPart h
  | .softResetFlushStep, h => of_ends ((refl s).softResetFlushStep) h
  | .writePlan _, h => served ownWritePlan h
  | .setClock _, h => of_ends ((refl s).serveWhere _ _ _ _ fun bs fields t hp => ownSetClock bs fields t hp) h
  | .startClock _, h => served ownStartClock h
  | .stopClock _, h => served ownStopClock h
  | .readClock _, h => served ownReadClock h
  | .writeTariff _, h => served ownWriteTariff h
  | .readTariff _, h => served ownReadTariff h
  | .setSweep _, h => served ownSetSweep h
  | .writeWindow _, h => served ownWriteWindow h
  | .windowWriteBackStep, h => of_ends ((refl s).windowWriteBackStep) h
  | .readWindow _, h => served ownReadWindow h
  | .enrolStation _, h => servedFinishing ownEnrolStation h
  | .removeStation _, h => servedFinishing ownRemoveStation h
  | .readStation _, h => served ownReadStation h
  | .leaseSet _, h => served ownLeaseSet h
  | .releaseSet _, h => served ownReleaseSet h
  | .startSet _, h => servedFinishing ownStartSet h
  | .stopSet _, h => servedFinishing ownStopSet h
  | .clearFault _, h => servedFinishing ownClearFault h
  | .ackAlarms _, h => served ownAckAlarms h
  | .setMarks _, h => served ownSetMarks h
  | .readSet _, h => served ownReadSet h
  | .openDelivery _, h => servedFinishing ownOpenDelivery h
  | .holdDelivery _, h => servedFinishing ownHoldDelivery h
  | .resumeDelivery _, h => servedFinishing ownResumeDelivery h
  | .finishDelivery _, h => servedFinishing ownFinishDelivery h
  | .cancelDelivery _, h => servedFinishing ownCancelDelivery h
  | .readChannel _, h => served ownReadChannel h
  | .takeDeliveryRecord _, h => served ownTakeDeliveryRecord h
  | .assignInput _, h => served ownAssignInput h
  | .setStage _, h => served ownSetStage h
  | .changeOver _, h => servedFinishing ownChangeOver h
  | .abortChangeover _, h => servedFinishing ownAbortChangeover h
  | .restoreStage _, h => servedFinishing ownRestoreStage h
  | .readStage _, h => served ownReadStage h
  | .installMap _, h => served ownInstallMap h
  | .clearMapAll _, h => servedWhere ownClearMapAll h
  | .clearMapUnpinned _, h => servedWhere ownClearMapUnpinned h
  | .clearMapCircuit _, h => servedWhere ownClearMapCircuit h
  | .readMiss _, h => served ownReadMiss h
  | .readMap _, h => served ownReadMap h
  | .readCircuit _, h => served ownReadCircuit h
  | .statement _, h => served (ownStatement _) h
  | .performStatement, h => of_ends ((refl s).performStatement) h
  | .rewriteAccount _, h => served ownRewriteAccount h
  | .performRewrite, h => of_ends ((refl s).performRewrite) h
  | .flushTotals _, h => served ownFlushTotals h
  | .flushStep, h => of_ends ((refl s).flushStep) h
  | .initTally _, h => served ownInitTally h
  | .initTallyStep, h => of_ends ((refl s).initTallyStep) h
  | .readTallyFault _, h => served ownReadTallyFault h
  | .closePeriod _, h => servedFinishing ownClosePeriod h
  | .takeHireRecord _, h => served ownTakeHireRecord h
  | .readPeriod _, h => served ownReadPeriod h
  | .accountUpdate, h => of_ends ((refl s).performAccountUpdate.finish) h
  | .lineQuiet, h => of_ends ((refl s).lineQuiet.finish) h
  | .replyAccepted _, h => of_ends (((refl s).replyAccepted _).finish) h
  | .transactionFault _ _, h => of_ends (((refl s).transactionFault _ _).finish) h
  | .silent _, h => of_ends (((refl s).listeningEnds _ _).finish) h
  | .tooLong _, h => of_ends (((refl s).listeningEnds _ _).finish) h
  | .frameOutsideTransaction _, h => of_ends ((refl s).frameOutside _) h
  | .lineJammed, h => of_ends ((refl s).lineJammed) h
  | .lineClear, h => of_ends ((refl s).lineClear.finish) h
  | .framingError _ _, h => of_ends ((refl s).breakOff _ _) h
  | .frameLengthBad _ _, h => of_ends ((refl s).receive _ _) h
  | .closingMarkSent, h => of_ends ((refl s).closingMarkSent) h
  | .badFrameOutsideTransaction _ _, h => of_ends ((refl s).badFrameOutside _ _) h

/-- The queue of commands that wait is in none of the laws. -/
theorem withPending {r s : State} (h : r.Sound s) (l : List Instr) : r.Sound { s with pending := l } :=
  h.trans ⟨fun p => by cases p <;> exact id, id, id, id, id, id, id, id, id⟩

/-- Every step keeps the laws of the device. -/
theorem step {s t : State} (h : Sys2Proof.Machine.step s = .next t) : s.Sound t := by
  unfold Sys2Proof.Machine.step at h
  split at h
  case h_1 => cases h; exact refl s
  case h_2 c rest _ => exact ((refl s).withPending rest).trans (exec c h)

end State.Sound

/-! ### The laws, one by one -/

/-- Settles O51: a law of each port. -/
theorem stepKeepsPortsBounded : Obligations.StepKeepsPortsBounded :=
  fun _ _ hy ho h => ⟨(State.Sound.step h).ports .yard hy, (State.Sound.step h).ports .office ho⟩

/-- Settles O52: a law of the line's queue. -/
theorem stepKeepsTheQueueBounded : Obligations.StepKeepsTheQueueBounded := fun _ _ hs h => (State.Sound.step h).queue hs

/-- Settles O53: a law of the two memories. -/
theorem stepKeepsMemoriesCanonical : Obligations.StepKeepsMemoriesCanonical := fun _ _ hs h => (State.Sound.step h).mem hs

/-- Settles O54: a law of the clock. -/
theorem stepKeepsTheClockInRange : Obligations.StepKeepsTheClockInRange := fun _ _ hs h => (State.Sound.step h).clock hs

/-- Settles O55: a law of the circuits and the billings in flight. -/
theorem stepKeepsTheBooksBalanced : Obligations.StepKeepsTheBooksBalanced := fun _ _ hs h => (State.Sound.step h).books hs

/-- Settles O56: a law of the circuit map. -/
theorem stepKeepsTheMapSingle : Obligations.StepKeepsTheMapSingle := fun _ _ hs h => (State.Sound.step h).map hs

/-- Settles O57: a law of the delivery unit. -/
theorem stepKeepsDeliveriesAccounted : Obligations.StepKeepsDeliveriesAccounted := fun _ _ hs h =>
  (State.Sound.step h).acc hs

/-- Settles O58: a law of the cache and the quarantine list. -/
theorem stepKeepsTheTallySound : Obligations.StepKeepsTheTallySound := fun _ _ hs h => (State.Sound.step h).tally hs

/-- Settles O59: a law of the period unit. -/
theorem stepKeepsHirePlaces : Obligations.StepKeepsHirePlaces := fun _ _ hs h => (State.Sound.step h).period hs

end Sys2Proof.Machine
end

section
/-! PROOFS. The block and its resets; the console ports (01): the check, the receiver, the transmitter, notices, and the
handler's own checks. -/

namespace Sys2Proof.Machine

/-! ### The block -/

/-- Settles O1: `step` by the two forms of the queue. -/
theorem stepRunsTheFrontCommand : Obligations.StepRunsTheFrontCommand := by
  refine ⟨fun c rest s h => ?_, fun s h => ?_⟩ <;> rw [step, h]

theorem exec_hardReset (torn : Option TornWrite) (s : State) : exec (.hardReset torn) s = .next (hardReset s torn) := rfl

/-- R199: what a write cut short inside its memory leaves there. -/
theorem State.tear_inside (s : State) {t : TornWrite} (h : t.inside = true) :
    s.tear (some t) =
      if t.toTally then { s with tallyMem := Memory.writeBytes s.tallyMem t.address t.bytes }
      else { s with planMem := Memory.writeBytes s.planMem t.address t.bytes } := by
  simp [State.tear, h]

/-- A write outside its memory leaves nothing (log entry 22). -/
theorem State.tear_outside (s : State) {t : TornWrite} (h : t.inside = false) : s.tear (some t) = s := by
  simp [State.tear, h]

/-- Settles O2: the memories by what the torn write leaves, the reset values by evaluation of the reset state. -/
theorem hardResetGivesResetValues : Obligations.HardResetGivesResetValues := by
  refine ⟨fun s => ⟨rfl, fun a bs => ⟨fun h => ?_, fun h => ?_, fun h => ?_, fun h => ?_⟩⟩, ?_⟩
  · rw [exec_hardReset, hardReset, State.tear_inside s (by simpa [TornWrite.inside, Config.bankBytes] using h)]
    rfl
  · rw [exec_hardReset, hardReset, State.tear_inside s (by simpa [TornWrite.inside, Config.bankBytes] using h)]
    rfl
  · rw [exec_hardReset, hardReset, State.tear_outside s (by simpa [TornWrite.inside, Config.bankBytes] using h)]
  · rw [exec_hardReset, hardReset, State.tear_outside s (by simpa [TornWrite.inside, Config.bankBytes] using h)]
  · simp +contextual [State.reset, Clock.reset, PortState.reset, Windows.reset, AccountWindow.reset, SetWindow.reset,
      Line.reset, Marks.reset, Deliveries.reset, Stage.reset, BillingEngine.reset, Circuit.reset, Tally.reset,
      Period.reset, Loader.reset, Stamp.zero, Config.intervalDefault, Config.limitDefault, Config.deadTimeDefault]

theorem Table.used_replicate_none {n : Nat} {α : Type} (i : Nat) : (Table.replicate n (none : Option α)).used i = none := by
  simp only [Table.used, Table.get_replicate]
  split <;> rfl

/-- A circuit of the reset state is as a circuit record is reset. -/
theorem State.reset_circuit {c : Nat} {r : Circuit} (h : State.reset.circuit c = some r) : r = Circuit.reset := by
  simp only [State.circuit, State.reset, BillingEngine.reset, Table.get_replicate, Option.ite_none_right_eq_some,
    Option.some.injEq] at h
  exact h.2.symm

/-- Settles O60: every list is empty, every table holds its reset value. -/
theorem resetMeetsTheInvariants : Obligations.ResetMeetsTheInvariants := by
  have hport : PortState.reset.bounded := ⟨by decide, by decide⟩
  refine ⟨hport, hport, ⟨by decide, by decide⟩, ⟨rfl, rfl⟩, ⟨by decide, by decide⟩,
    ⟨fun c r h => ?_, List.nodup_nil, by simp [State.reset, BillingEngine.reset]⟩, fun i j x y hx => ?_, rfl,
    ⟨fun n l h => ?_, List.nodup_nil, by decide⟩, by unfold Period.placesKept; decide⟩
  · rw [State.reset_circuit h]
    exact ⟨rfl, fun _ => ⟨rfl, rfl⟩⟩
  · simp [State.reset, BillingEngine.reset, Table.used_replicate_none] at hx
  · simp [State.reset, Tally.reset, Table.used_replicate_none] at h

/-! ### The check -/

theorem crc16_append (xs ys : List Byte) : crc16 (xs ++ ys) = ys.foldl crcByte (crc16 xs) := List.foldl_append ..

/-- A register whose highest bit is 0 is shifted. -/
theorem crcShift_ofNat {n : Nat} (h : n < 0x8000) : crcShift (BitVec.ofNat 16 n) = BitVec.ofNat 16 (2 * n) := by
  rw [crcShift, if_pos (by simp; omega)]
  apply BitVec.eq_of_toNat_eq
  simp [Nat.shiftLeft_eq]
  omega

/-- A byte that leaves nothing but the low byte of the register moves that byte up. -/
theorem crcByte_of_xor {r : BitVec 16} {b : Byte} {n : Nat} (hn : n < 256)
    (h : r ^^^ BitVec.ofNat 16 (b.toNat * 256) = BitVec.ofNat 16 n) : crcByte r b = BitVec.ofNat 16 (n * 256) := by
  rw [crcByte, h]
  dsimp only
  iterate 8 rw [crcShift_ofNat (by omega)]
  congr 1
  omega

/-- A byte equal to the high byte of the register takes it away. -/
theorem xor_high_byte {r m : Nat} (hm : m = r / 2 ^ 8 * 2 ^ 8) : r ^^^ m = r % 2 ^ 8 := by
  have hdiv : (r ^^^ m) / 2 ^ 8 = 0 := by
    rw [Nat.xor_div_two_pow, hm, Nat.mul_div_cancel _ (by decide), Nat.xor_self]
  have hmod : (r ^^^ m) % 2 ^ 8 = r % 2 ^ 8 := by
    rw [Nat.xor_mod_two_pow, hm, Nat.mul_mod_left, Nat.xor_zero]
  omega

theorem crcByte_high (r : BitVec 16) :
    crcByte r (BitVec.ofNat 8 (r.toNat / 256)) = BitVec.ofNat 16 (r.toNat % 256 * 256) := by
  refine crcByte_of_xor (Nat.mod_lt _ (by decide)) (BitVec.eq_of_toNat_eq ?_)
  have hr := r.isLt
  have hhigh : (BitVec.ofNat 16 ((BitVec.ofNat 8 (r.toNat / 256)).toNat * 256)).toNat = r.toNat / 2 ^ 8 * 2 ^ 8 := by
    simp only [BitVec.toNat_ofNat]
    omega
  rw [BitVec.toNat_xor, xor_high_byte hhigh, BitVec.toNat_ofNat]
  omega

theorem crcByte_self {n : Nat} {b : Byte} (hb : b.toNat = n) : crcByte (BitVec.ofNat 16 (n * 256)) b = 0#16 :=
  crcByte_of_xor (n := 0) (by decide) (by rw [hb, BitVec.xor_self])

/-- R3: the two bytes of a register, run through it, leave 0. -/
theorem foldl_crcByte_be (r : BitVec 16) : (be 2 r.toNat).foldl crcByte r = 0#16 := by
  simp only [be, Nat.pow_one, Nat.pow_zero, Nat.div_one, List.foldl_cons, List.foldl_nil, crcByte_high]
  exact crcByte_self (by simp)

/-- Settles O3: bytes followed by their check run the register's own two bytes through it. -/
theorem checkOverBytes : Obligations.CheckOverBytes :=
  ⟨by decide +kernel, rfl, fun bs => by rw [crc16_append, checkBytes, foldl_crcByte_be]⟩

/-! ### The receiver -/

/-- A change of a port is what it makes of the port as it stands. -/
theorem State.withPort_congr (s : State) (p : Port) {f g : PortState → PortState} (h : f (s.port p) = g (s.port p)) :
    s.withPort p f = s.withPort p g := by
  cases p <;> (simp only [State.port] at h; simp only [State.withPort, h])

/-- What a complete frame, if any, does to a port. -/
def PortState.offerIfAny (q : PortState) (f : Option Frame) : PortState := f.elim q q.offer

theorem PortState.receive_nil (q : PortState) : q.receive [] = q := rfl

theorem PortState.receive_cons (q : PortState) (b : Byte) (bs : List Byte) :
    q.receive (b :: bs) = (({ q with rx := (rxByte q.rx b).1 } : PortState).offerIfAny (rxByte q.rx b).2).receive bs := by
  rw [receive]
  rcases rxByte q.rx b with ⟨rx, _ | f⟩ <;> rfl

theorem PortState.receive_append (bs cs : List Byte) (q : PortState) : q.receive (bs ++ cs) = (q.receive bs).receive cs := by
  induction bs generalizing q with
  | nil => rfl
  | cons b bs ih => rw [List.cons_append, receive_cons, receive_cons, ih]

/-- R2: the start byte of a frame, heard by a hunting receiver. -/
theorem PortState.receive_start {q : PortState} (h : q.rx = .hunting) (bs : List Byte) :
    q.receive (0x5A :: bs) = ({ q with rx := .receiving [] } : PortState).receive bs := by
  rw [receive_cons, h]
  rfl

theorem lengthValid_iff (b : Byte) : lengthValid b = true ↔ 2 ≤ b.toNat ∧ b.toNat ≤ 122 := by
  simp [lengthValid]

/-- R2: the bytes of a frame before its last are collected. -/
theorem PortState.receive_collect {len : Byte} (bs got : List Byte) (q : PortState)
    (h : q.rx = .receiving (len :: got)) (hl : got.length + bs.length < len.toNat + 2) :
    q.receive bs = { q with rx := .receiving (len :: (got ++ bs)) } := by
  induction bs generalizing got q with
  | nil => rw [receive_nil, List.append_nil, ← h]
  | cons b bs ih =>
    rw [List.length_cons] at hl
    have hstep : rxByte q.rx b = (.receiving (len :: (got ++ [b])), none) := by
      rw [h, rxByte, if_pos (by omega)]
      rfl
    rw [receive_cons, hstep, ih (got ++ [b]) _ rfl (by simp; omega)]
    simp [offerIfAny]

/-- R2: a frame not yet complete stands in the receiver. -/
theorem PortState.receive_part {q : PortState} {len : Byte} {got : List Byte} (h : q.rx = .hunting)
    (hlen : lengthValid len = true) (hl : got.length < len.toNat + 2) :
    q.receive (0x5A :: len :: got) = { q with rx := .receiving (len :: got) } := by
  rw [receive_start h, receive_cons]
  simp only [rxByte, hlen, if_true, offerIfAny, Option.elim_none]
  rw [receive_collect got [] _ rfl (by simpa using hl)]
  rfl

/-- R2: a frame heard to its end is offered where its check is right. -/
theorem PortState.receive_whole {q : PortState} {len : Byte} {body : List Byte} (h : q.rx = .hunting)
    (hlen : lengthValid len = true) (hl : body.length = len.toNat + 2) :
    q.receive (0x5A :: len :: body) = q.offerIfAny (checkedFrame (len :: body)) := by
  obtain ⟨init, last, rfl⟩ := List.eq_nil_or_concat' body |>.resolve_left (by rintro rfl; simp at hl)
  rw [List.length_append, List.length_singleton] at hl
  have hstep : rxByte (.receiving (len :: init)) last = (.hunting, checkedFrame (len :: (init ++ [last]))) := by
    rw [rxByte, if_neg (by omega)]
    rfl
  rw [show (0x5A : Byte) :: len :: (init ++ [last]) = (0x5A :: len :: init) ++ [last] from rfl, receive_append,
    receive_part h hlen (by omega), receive_cons]
  dsimp only
  rw [hstep, receive_nil, ← h]

/-- R2: a bad length byte ends the frame. -/
theorem PortState.receive_badLength {q : PortState} {len : Byte} (h : q.rx = .hunting) (hlen : lengthValid len = false) :
    q.receive [0x5A, len] = q := by
  rw [receive_start h, receive_cons]
  simp only [rxByte, hlen, offerIfAny, Option.elim_none, receive_nil]
  rw [← h]
  rfl

/-- R2, Check: bytes counted that are followed by another check are no frame. -/
theorem checkedFrame_of_ne {len : Byte} {counted check : List Byte} (h : counted.length = len.toNat)
    (hne : check ≠ checkBytes (len :: counted)) : checkedFrame (len :: (counted ++ check)) = none := by
  simp only [checkedFrame, ← h, List.take_left', List.drop_left', beq_iff_eq, if_neg hne.symm]

/-- R2, Check: bytes counted that are followed by their check are a frame. -/
theorem checkedFrame_of_check {len : Byte} (f : Frame) (h : f.payload.length + 2 = len.toNat) :
    checkedFrame (len :: (f.kind :: f.tag :: f.payload ++ checkBytes (len :: f.kind :: f.tag :: f.payload))) = some f := by
  have hl : (f.kind :: f.tag :: f.payload).length = len.toNat := h
  simp only [checkedFrame, ← hl, List.take_left', List.drop_left', beq_self_eq_true, if_true]

theorem length_checkBytes (bs : List Byte) : (checkBytes bs).length = 2 := length_be ..

/-- R2, R3: a frame's own bytes are heard as that frame. -/
theorem PortState.receive_frame {q : PortState} {f : Frame} (h : q.rx = .hunting) (hf : f.payload.length ≤ 120) :
    q.receive f.bytes = q.offer f := by
  have hlen : (BitVec.ofNat 8 (f.payload.length + 2)).toNat = f.payload.length + 2 := by
    rw [BitVec.toNat_ofNat]
    omega
  rw [Frame.bytes, List.cons_append, List.cons_append]
  refine (receive_whole h ((lengthValid_iff _).2 (by omega)) (by simp [length_checkBytes, hlen])).trans ?_
  rw [checkedFrame_of_check f hlen.symm]
  rfl

/-- A receiver that breaks off after part of a frame is as it was when it began to hear it. -/
theorem State.breakOff_part {s : State} {p : Port} {len : Byte} {got : List Byte} (h : (s.port p).rx = .hunting)
    (hlen : lengthValid len = true) (hl : got.length < len.toNat + 2) : s.breakOff p (0x5A :: len :: got) = s :=
  s.withPort_eq_self p _ (by
    rw [PortState.receive_part h hlen hl]
    simp only [← h])

theorem exec_frameComplete (p : Port) (bs : List Byte) (s : State) :
    exec (.frameComplete p bs) s = .next (s.withPort p fun q => q.receive bs).transmit := rfl

theorem exec_frameGap (p : Port) (bs : List Byte) (s : State) :
    exec (.frameGap p bs) s = .next (s.breakOff p bs).transmit := rfl

theorem exec_framingError (p : Port) (bs : List Byte) (s : State) :
    exec (.framingError p bs) s = .next (s.breakOff p bs).transmit := rfl

theorem exec_frameLengthBad (p : Port) (bs : List Byte) (s : State) :
    exec (.frameLengthBad p bs) s = .next (s.withPort p fun q => q.receive bs).transmit := rfl

/-- Settles O4: each event by what the receiver makes of the bytes it tells. -/
theorem framesAreReceived : Obligations.FramesAreReceived := by
  refine ⟨fun p s f hf h => ?_, fun p s len counted check h h2 h122 hcounted hcheck hne => ?_,
    fun p s len got h h2 h122 hl => ?_, fun p s => ⟨rfl, rfl⟩, fun p s len h hlen => ?_⟩
  · rw [exec_frameComplete, s.withPort_congr p (g := fun q => q.offer f) (PortState.receive_frame h hf)]
    rfl
  · rw [exec_frameComplete, s.withPort_eq_self p]
    rw [PortState.receive_whole h ((lengthValid_iff _).2 ⟨h2, h122⟩) (by simp [hcounted, hcheck]),
      checkedFrame_of_ne hcounted hne]
    rfl
  · have hlen := (lengthValid_iff len).2 ⟨h2, h122⟩
    rw [exec_frameGap, exec_framingError, State.breakOff_part h hlen hl]
    exact ⟨rfl, rfl⟩
  · have hbad : lengthValid len = false := by
      rw [Bool.eq_false_iff, Ne, lengthValid_iff]
      omega
    rw [exec_frameLengthBad, s.withPort_eq_self p _ (PortState.receive_badLength h hbad)]

/-! ### The transmitter -/

theorem PortState.sent_of_sending {q : PortState} {f : Sending} (h : q.tx = some f) :
    q.sent = { q with tx := none, inProgress := if f.isReply then none else q.inProgress } := by
  rw [sent, h]

theorem exec_frameTransmitted (p : Port) (s : State) :
    exec (.frameTransmitted p) s = .next (s.withPort p PortState.sent).transmit := rfl

theorem PortState.kick_busy {q : PortState} {x : Sending} (h : q.tx = some x) : q.kick = q := by
  rw [kick, h]

theorem PortState.kick_reply {q : PortState} {r : Reply} (ht : q.tx = none) (hw : q.waiting = some r) :
    q.kick =
      { q with
        tx := some ⟨replyFrame r (q.inProgress.elim 0 fun x => x.tag) q.inputDiscarded, true⟩
        waiting := none
        inputDiscarded := false } := by
  rw [kick, ht, hw]

theorem PortState.kick_notice {q : PortState} {n : Notice} {rest : List Notice} (ht : q.tx = none) (hw : q.waiting = none)
    (hn : q.notices = n :: rest) :
    q.kick =
      { q with
        tx := some ⟨noticeFrame n q.noticesDropped, false⟩
        notices := rest
        noticesDropped := false } := by
  rw [kick, ht, hw, hn]

theorem PortState.kick_idle {q : PortState} (ht : q.tx = none) (hw : q.waiting = none) (hn : q.notices = []) :
    q.kick = q := by
  rw [kick, ht, hw, hn]

/-- 01, section 1.6: the status byte of a reply. -/
theorem replyStatus_eq (b : Bool) : replyStatus b = if b then 1#8 else 0#8 := by cases b <;> rfl

theorem noticeStatus_eq (b : Bool) : noticeStatus b = if b then 2#8 else 0#8 := by cases b <;> rfl

/-- Settles O5: the transmitter and the handler, case by case of what they find. -/
theorem transmitterSendsReplyBeforeNotice : Obligations.TransmitterSendsReplyBeforeNotice := by
  refine ⟨fun p s f h => ?_, fun q x h => PortState.kick_busy h, fun q r a ht hw ha => ?_, fun q n rest ht hw hn => ?_,
    fun data => ⟨rfl, rfl⟩, ⟨rfl, rfl⟩, fun code field window => ⟨rfl, ?_⟩, fun q ht hw hn => PortState.kick_idle ht hw hn,
    fun q b x h => PortState.takeNext_busy h b, fun q b h => ?_, fun q f rest h hb => PortState.takeNext_free h hb,
    fun s => rfl⟩
  · rw [exec_frameTransmitted, s.withPort_congr p
      (g := fun q => { q with tx := none, inProgress := if f.isReply then none else q.inProgress })
      (PortState.sent_of_sending h)]
  · rw [PortState.kick_reply ht hw, ha, replyFrame, replyStatus_eq]
    rfl
  · rw [PortState.kick_notice ht hw hn, noticeFrame, noticeStatus_eq]
    rfl
  · cases code <;> rfl
  · rcases h with h | rfl
    · exact PortState.takeNext_empty h b
    · exact PortState.takeNext_due q

/-! ### Notices -/

/-- R13, R15: what a posted notice does to each port. -/
theorem State.port_post (s : State) (k : NoticeKind) (data : List Byte) (p : Port) :
    (s.post k data).port p = if k.goesTo p then (s.port p).post ⟨k, s.now, data⟩ else s.port p := by
  rw [State.post]
  cases p <;> cases k.goesTo .yard <;> cases k.goesTo .office <;> rfl

/-- Settles O6: what a posted notice does to a port; the ports and values of the kinds, kind by kind. -/
theorem noticeJoinsItsPorts : Obligations.NoticeJoinsItsPorts :=
  ⟨fun s k data p => s.port_post k data p, fun p => by cases p <;> rfl, rfl, rfl, fun k => by cases k <;> rfl⟩

/-! ### The handler's checks -/

theorem exec_unknownRequest (p : Port) (s : State) : exec (.unknownRequest p) s = .next (s.refuseUnknown p).transmit := rfl

/-- R6, check 1: a kind that no row of the table has is no request. -/
theorem isRequestKind_eq_false {k : Byte} (h : ∀ r ∈ requestRows, r.kind ≠ k) : isRequestKind k = false := by
  rw [isRequestKind, List.any_eq_false]
  exact fun r hr => by simpa using h r hr

/-- R6, check 2. -/
theorem judge_loading {p : Port} {row : RequestRow} (hk : row.kind ≠ 0x01) (payload : List Byte) :
    judge p row false payload = .error (.refused .loading 0 0xFF) := by
  have : (row.kind != 0x01#8) = true := bne_iff_ne.2 hk
  simp [judge, this, refuse]

/-- R6, check 2 passed: the role, then the layout. -/
theorem judge_eq {p : Port} {row : RequestRow} {ready : Bool} (h : ready = true ∨ row.kind = 0x01) (payload : List Byte) :
    judge p row ready payload =
      if row.allowedOn p then row.layout.parse payload else .error (.refused .role 0 0xFF) := by
  have : (!ready && row.kind != 0x01#8) = false := by rcases h with h | h <;> simp [h]
  cases hp : row.allowedOn p <;> simp [judge, this, hp, refuse]

/-- Settles O7: check 1 by the kinds of the table, checks 2 to 4 by what `judge` answers. -/
theorem handlerRefusesBeforeTheOwner : Obligations.HandlerRefusesBeforeTheOwner := by
  refine ⟨fun p s f hr hk => ?_, fun c p row s f hc hr hk hform => ?_, fun c p row s hc hnot => ?_⟩
  · rw [exec_unknownRequest, State.refuseUnknown, hr]
    simp only [isRequestKind_eq_false hk]
    rfl
  · obtain ⟨owner, howner⟩ := exec_request hc
    have hexec := serveWhere_of_request (row := row) (owner := owner)
      (accepts := fun f => f.kind == row.kind && takesForm c f) hr (by simp [hk, hform])
    refine ⟨fun hl hid => ?_, fun hl hp => ?_, fun r hl hp hparse => ?_⟩
    · rw [howner, hexec, hl, judge_loading hid]
      rfl
    · rw [howner, hexec, judge_eq hl, hp]
      rfl
    · rw [howner, hexec, judge_eq hl, hp, if_pos rfl, hparse]
      rfl
  · obtain ⟨owner, howner⟩ := exec_request hc
    rw [howner, serveWhere_of_not, ends]
    exact fun r hr => (hnot r hr).imp_right fun h => by simp [h]

/-! ### Payload layouts -/

theorem parse_fixed (widths : List Nat) (bs : List Byte) : (Layout.fixed widths).parse bs = parseFixed widths bs := rfl

theorem parse_list (before : List Nat) (cap : Nat) (entry : List Nat) (bs : List Byte) :
    (Layout.list before cap entry).parse bs = parseList before cap entry bs := rfl

theorem firstMissing_of_le (ws : List Nat) (k n : Nat) (h : ws.sum ≤ n) : firstMissing k ws n = none := by
  induction ws generalizing k n with
  | nil => rfl
  | cons w ws ih =>
    rw [List.sum_cons] at h
    rw [firstMissing, if_neg (by omega), ih _ _ (by omega)]

/-- The first field that is not wholly there. -/
theorem firstMissing_of_lt (ws : List Nat) (i k n : Nat) (hi : i < ws.length) (hle : (ws.take i).sum ≤ n)
    (hlt : n < (ws.take (i + 1)).sum) : firstMissing k ws n = some (k + i) := by
  induction ws generalizing i k n with
  | nil => simp at hi
  | cons w ws ih =>
    rw [List.take_succ_cons, List.sum_cons] at hlt
    cases i with
    | zero => rw [firstMissing, if_pos (by simpa using hlt)]; rfl
    | succ i =>
      rw [List.take_succ_cons, List.sum_cons] at hle
      rw [firstMissing, if_neg (by omega), ih i (k + 1) (n - w) (by simpa using hi) (by omega) (by omega)]
      congr 1
      omega

/-- R6, check 4: what a count and list with a count byte is refused for, or gives. -/
theorem parseList_of_count {before : List Nat} {cap : Nat} {entry : List Nat} {head tail : List Byte} {count : Byte}
    (h : head.length = before.sum) :
    parseList before cap entry (head ++ count :: tail) =
      if cap < count.toNat then .error (refuse .range (before.length + 1))
      else if tail.length ≠ count.toNat * entry.sum then .error (refuse .format (before.length + 1))
      else .ok (fieldValues (before ++ 1 :: repeatWidths entry count.toNat) (head ++ count :: tail)) := by
  have hcount : (head ++ count :: tail)[before.sum]? = some count := by rw [← h]; simp
  have hlen : (head ++ count :: tail).length ≠ before.sum + 1 + count.toNat * entry.sum ↔
      tail.length ≠ count.toNat * entry.sum := by
    rw [List.length_append, List.length_cons]
    omega
  simp only [parseList, hcount, hlen]

theorem length_fieldValues (ws : List Nat) (bs : List Byte) : (fieldValues ws bs).length = ws.length := by
  induction ws generalizing bs with
  | nil => rfl
  | cons w ws ih => rw [fieldValues, List.length_cons, List.length_cons, ih]

/-- Fields one after another: those of the first layout, then those of the second. -/
theorem fieldValues_append (ws vs : List Nat) (bs cs : List Byte) (h : bs.length = ws.sum) :
    fieldValues (ws ++ vs) (bs ++ cs) = fieldValues ws bs ++ fieldValues vs cs := by
  induction ws generalizing bs with
  | nil => rw [List.length_eq_zero_iff.1 h]; rfl
  | cons w ws ih =>
    rw [List.sum_cons] at h
    simp only [List.cons_append, fieldValues, List.take_append_of_le_length (show w ≤ bs.length by omega),
      List.drop_append_of_le_length (show w ≤ bs.length by omega), ih (bs.drop w) (by simp [h])]

theorem fromBe_take_one (b : Byte) (bs : List Byte) : fromBe ((b :: bs).take 1) = b.toNat := by
  simp [fromBe]

/-- Settles O8: the two kinds of layout, by the field the payload ends in or by its count. -/
theorem payloadsAreCheckedAgainstTheirLayout : Obligations.PayloadsAreCheckedAgainstTheirLayout := by
  refine ⟨fun widths bs h => parseFixed_of_length h, fun widths bs h => ?_, fun widths bs k hk hle hlt => ?_,
    fun before cap entry bs h => ?_, fun before cap entry head tail count h => ⟨fun hcap => ?_, fun hcap hl => ?_,
    fun hcap hl => ⟨_, by rw [parse_list, parseList_of_count h, if_neg (by omega), if_neg (not_not.2 hl)], ?_⟩⟩⟩
  · rw [parse_fixed, parseFixed, firstMissing_of_le _ _ _ (by omega)]
    simp [h, refuse]
  · rw [parse_fixed, parseFixed, firstMissing_of_lt _ k _ _ hk hle hlt, Nat.add_comm 1 k]
    rfl
  · rw [parse_list, parseList, List.getElem?_eq_none h]
    rfl
  · rw [parse_list, parseList_of_count h, if_pos hcap]
    rfl
  · rw [parse_list, parseList_of_count h, if_neg (by omega), if_pos hl]
    rfl
  · have hl : (fieldValues before head).length = before.length := length_fieldValues ..
    rw [fieldValues_append _ _ _ _ h, fieldValues, fromBe_take_one, ← hl, List.take_length_add_append]
    rfl

end Sys2Proof.Machine
end

section
/-! PROOFS. The festival clock, the tariff calendar, the sweep settings and the time base (02). -/

namespace Sys2Proof.Machine

/-! ### Requests with a fixed layout -/

/-- An offered request of a fixed layout whose payload spells a number in each field is its owner's. -/
theorem exec_of_fields {c : Instr} {p : Port} {row : RequestRow} {owner : List Nat → State → Answered} {s : State}
    {tag : Byte} {payload : List Byte} (hexec : exec c s = ends (serve p row owner s)) (h : Offered s p row.kind tag payload)
    (hport : row.allowedOn p = true) (xs : List (Nat × Nat)) (hlayout : row.layout = .fixed (xs.map Prod.fst))
    (hfit : ∀ x ∈ xs, x.2 < 256 ^ x.1) (hpayload : encodeFields xs = payload) :
    exec c s = .next (deliver p (owner (xs.map Prod.snd) (s.judged p))).transmit := by
  subst hpayload
  rw [hexec, serve_of_offered h hport (by rw [hlayout]; exact parse_encodeFields hfit), ends]

/-- An offered request with an empty payload is its owner's. -/
theorem exec_of_empty {c : Instr} {p : Port} {row : RequestRow} {owner : List Nat → State → Answered} {s : State}
    {tag : Byte} (hexec : exec c s = ends (serve p row owner s)) (h : Offered s p row.kind tag [])
    (hport : row.allowedOn p = true) (hlayout : row.layout = .fixed []) :
    exec c s = .next (deliver p (owner [] (s.judged p))).transmit :=
  exec_of_fields hexec h hport [] hlayout (by simp) rfl

/-! ### SET CLOCK, START CLOCK, STOP CLOCK -/

theorem exec_setClock_offered {s : State} {tag : Byte} {day second : Nat} (hday : day < 256) (hsecond : second < 16777216)
    (h : Offered s .office 0x10 tag (be 1 day ++ be 3 second)) :
    exec (.setClock .office) s = .next (deliver .office (ownSetClock [day, second] (s.judged .office))).transmit :=
  exec_of_fields (row := .setClock) rfl h rfl [(1, day), (3, second)] rfl (by simp [hday, hsecond]) (by simp [encodeFields])

/-- Settles O9: each request by the checks of its owner. -/
theorem clockIsSetStartedAndStopped : Obligations.ClockIsSetStartedAndStopped := by
  refine ⟨fun s tag day second hday hsecond h => ?_, fun s tag h => ?_, fun s tag h => ?_⟩
  · rw [exec_setClock_offered hday hsecond h]
    refine ⟨fun hlate => ?_, fun hin hstate => ?_, fun hin hstate => ?_⟩
    · simp [ownSetClock, unlessRefused_cons, arg, Config.lastSecond, hlate, deliver_some, State.replied, refuse]
    · simp [ownSetClock, unlessRefused_cons, arg, Config.lastSecond, Nat.not_lt.2 hin, hstate, deliver_some, State.replied, refuse]
    · simp [ownSetClock, unlessRefused_cons, unlessRefused_nil, arg, Config.lastSecond, Nat.not_lt.2 hin, hstate, deliver_done,
        State.replied, State.didReply]
  · rw [exec_of_empty (row := .startClock) (owner := ownStartClock) rfl h rfl rfl]
    refine ⟨fun hstate => ?_, fun hstate => ?_⟩
    · have : (s.clock.state == .running || s.clock.state == .ended) = false := by
        rcases hstate with hstate | hstate <;> simp [hstate]
      simp [ownStartClock, unlessRefused_cons, unlessRefused_nil, this, deliver_done, State.replied, State.didReply]
    · have : (s.clock.state == .running || s.clock.state == .ended) = true := by
        rcases hstate with hstate | hstate <;> simp [hstate]
      simp [ownStartClock, unlessRefused_cons, this, deliver_some, State.replied, refuse]
  · rw [exec_of_empty (row := .stopClock) (owner := ownStopClock) rfl h rfl rfl]
    refine ⟨fun hstate => ?_, fun hstate => ?_⟩
    · simp [ownStopClock, unlessRefused_cons, unlessRefused_nil, hstate, deliver_done, State.replied, State.didReply]
    · simp [ownStopClock, unlessRefused_cons, hstate, deliver_some, State.replied, refuse]

/-! ### CLOCK INCREMENT -/

theorem exec_clockIncrement (s : State) : exec .clockIncrement s = .next (clockIncrement s).transmit := rfl

/-- R23: an increment that is due. -/
theorem clockIncrement_of_due {s : State} (hrun : s.clock.state = .running) (hphase : s.clock.phase = 10) :
    clockIncrement s =
      if s.clock.atEnd then
        ({ s with clock := { s.clock with state := .ended, phase := 0 } } : State).post .clockEnded []
      else { s with clock := s.clock.advance } := by
  simp [clockIncrement, hrun, hphase]

/-- Settles O10: the three places the clock can stand at. -/
theorem clockIncrementAddsASecond : Obligations.ClockIncrementAddsASecond := by
  intro s hrun hphase
  rw [exec_clockIncrement, clockIncrement_of_due hrun hphase]
  refine ⟨fun hs => ?_, fun hs hd => ?_, fun hs hd => ?_⟩
  · have : s.clock.atEnd = false := by simp [Clock.atEnd, Config.lastSecond, hs.ne]
    simp [this, Clock.advance, Config.lastSecond, hs, hphase]
  · have : s.clock.atEnd = false := by simp [Clock.atEnd, Config.lastDay, hd.ne]
    simp [this, Clock.advance, Config.lastSecond, hs, hphase]
  · have : s.clock.atEnd = true := by simp [Clock.atEnd, Config.lastSecond, Config.lastDay, hs, hd]
    rw [this, if_pos rfl]

/-! ### READ CLOCK, READ TARIFF, the band -/

/-- R27: the band is that of the last entry that has started. -/
theorem bandAt_of_started {before after : List TariffEntry} {e : TariffEntry} {second : Nat} (he : e.start ≤ second)
    (hafter : ∀ x ∈ after, second < x.start) : bandAt (before ++ e :: after) second = e.band := by
  have hnone : after.filter (fun x => decide (x.start ≤ second)) = [] := by
    simpa [List.filter_eq_nil_iff] using hafter
  simp [bandAt, he, hnone]

/-- R27: before the first entry's start the band is that of the last entry. -/
theorem bandAt_of_none_started {before : List TariffEntry} {e : TariffEntry} {second : Nat}
    (h : ∀ x ∈ before ++ [e], second < x.start) : bandAt (before ++ [e]) second = e.band := by
  have hnone : (before ++ [e]).filter (fun x => decide (x.start ≤ second)) = [] := by
    rw [List.filter_eq_nil_iff]
    exact fun x hx => by simpa using h x hx
  simp [bandAt, hnone]

/-- Settles O11: the two reads by their owners, the band by the entries that have started. -/
theorem clockCalendarAndBand : Obligations.ClockCalendarAndBand := by
  refine ⟨⟨fun s p tag h => ?_, fun s p tag h => ?_⟩, fun _ => rfl, fun _ _ _ _ _ he hafter => bandAt_of_started he hafter,
    fun _ _ _ h => bandAt_of_none_started h⟩
  · rw [exec_of_empty (row := .readClock) (owner := ownReadClock) rfl h (by cases p <;> rfl) rfl]
    simp only [ownReadClock, deliver_done, State.judged_clock, State.band, beq_iff_eq]
    rfl
  · rw [exec_of_empty (row := .readTariff) (owner := ownReadTariff) rfl h (by cases p <;> rfl) rfl]
    simp only [ownReadTariff, deliver_done, State.judged_clock, State.band]
    rfl

/-! ### WRITE TARIFF -/

/-- The fields of one entry of the calendar, with their widths. -/
def TariffEntry.fields (e : TariffEntry) : List (Nat × Nat) := [(3, e.start), (1, e.band)]

theorem encodeFields_append (xs ys : List (Nat × Nat)) : encodeFields (xs ++ ys) = encodeFields xs ++ encodeFields ys := by
  simp [encodeFields]

theorem encodeFields_tariff (entries : List TariffEntry) :
    encodeFields (entries.flatMap TariffEntry.fields) = entries.flatMap fun e => be 3 e.start ++ be 1 e.band := by
  induction entries with
  | nil => rfl
  | cons e entries ih => rw [List.flatMap_cons, encodeFields_append, ih]; simp [encodeFields, TariffEntry.fields]

theorem widths_tariff (entries : List TariffEntry) :
    (entries.flatMap TariffEntry.fields).map Prod.fst = repeatWidths [3, 1] entries.length := by
  induction entries with
  | nil => rfl
  | cons e entries ih => rw [List.flatMap_cons, List.map_append, ih]; rfl

theorem tariffEntries_fields (entries : List TariffEntry) :
    tariffEntries ((entries.flatMap TariffEntry.fields).map Prod.snd) = entries := by
  induction entries with
  | nil => rfl
  | cons e entries ih =>
    rw [List.flatMap_cons, List.map_append]
    simp only [TariffEntry.fields, List.map_cons, List.map_nil, List.cons_append, List.nil_append, tariffEntries, ih]

/-- R26: a well-formed list of entries is parsed to its count and its fields. -/
theorem parse_writeTariff {entries : List TariffEntry} (hlen : entries.length ≤ 8)
    (hfit : ∀ e ∈ entries, e.start < 16777216 ∧ e.band < 256) :
    RequestRow.writeTariff.layout.parse
        (be 1 entries.length ++ entries.flatMap fun e => be 3 e.start ++ be 1 e.band) =
      .ok (entries.length :: (entries.flatMap TariffEntry.fields).map Prod.snd) := by
  have hcount : (BitVec.ofNat 8 entries.length).toNat = entries.length := by
    rw [BitVec.toNat_ofNat]; omega
  have hone : be 1 entries.length = [BitVec.ofNat 8 entries.length] := by simp [be]
  have hfields : ∀ x ∈ (1, entries.length) :: entries.flatMap TariffEntry.fields, x.2 < 256 ^ x.1 := by
    simp only [List.forall_mem_cons, List.forall_mem_flatMap, TariffEntry.fields]
    exact ⟨by omega, fun e he => ⟨(hfit e he).1, (hfit e he).2, by simp⟩⟩
  have hvalues := fieldValues_encodeFields hfields
  rw [encodeFields, List.flatMap_cons, ← encodeFields, encodeFields_tariff, List.map_cons, List.map_cons, widths_tariff,
    hone] at hvalues
  rw [hone]
  refine (parseList_of_count (before := []) (head := []) rfl).trans ?_
  rw [hcount, if_neg (by omega), if_neg (by simp)]
  exact congrArg Except.ok hvalues

/-- R26: entries that pass are passed over; the start second of the last of them is the one before. -/
theorem firstBadEntry_append {good : List TariffEntry} (rest : List TariffEntry) (k : Nat) (before : Option Nat)
    (hrise : good.Pairwise fun a b => a.start < b.start) (hgood : ∀ x ∈ good, x.start ≤ 86399 ∧ x.band ≤ 3)
    (hbefore : ∀ b ∈ before, ∀ x ∈ good, b < x.start) :
    firstBadEntry k before (good ++ rest) =
      firstBadEntry (k + 2 * good.length) ((good.getLast?.map fun x => x.start).or before) rest := by
  induction good generalizing k before with
  | nil => rfl
  | cons x good ih =>
    obtain ⟨⟨hs, hb⟩, hrest⟩ := List.forall_mem_cons.1 hgood
    obtain ⟨hx, hrise⟩ := List.pairwise_cons.1 hrise
    have hnot : (before.elim false fun b => decide (x.start ≤ b)) = false := by
      cases before with
      | none => rfl
      | some b => simpa using hbefore b rfl x (List.mem_cons_self ..)
    rw [List.cons_append, firstBadEntry, if_neg (by simpa [Config.lastSecond] using hs), hnot, if_neg (by simp),
      if_neg (by omega), ih (k + 2) (some x.start) hrise hrest (by simpa using hx), List.length_cons]
    congr 1
    · omega
    · cases good with
      | nil => rfl
      | cons y good => rw [List.getLast?_cons_cons, List.getLast?_cons]; rfl

/-- R26: where the entries before it have passed, an entry fails at its start second or at its band. -/
theorem firstBadEntry_at {good more : List TariffEntry} {e : TariffEntry}
    (hrise : good.Pairwise fun a b => a.start < b.start) (hgood : ∀ x ∈ good, x.start ≤ 86399 ∧ x.band ≤ 3) :
    (86399 < e.start ∨ (∃ x ∈ good, e.start ≤ x.start) →
        firstBadEntry 2 none (good ++ e :: more) = some (2 * good.length + 2)) ∧
      (e.start ≤ 86399 → (∀ x ∈ good, x.start < e.start) → 3 < e.band →
        firstBadEntry 2 none (good ++ e :: more) = some (2 * good.length + 3)) := by
  rw [firstBadEntry_append _ _ _ hrise hgood (by simp), Option.or_none, firstBadEntry, Nat.add_comm 2]
  rcases List.eq_nil_or_concat' good with rfl | ⟨init, last, rfl⟩
  · simp +contextual [Config.lastSecond, Nat.not_lt.2]
  · have hlast : ∀ x ∈ init ++ [last], x.start ≤ last.start := by
      rw [List.pairwise_append] at hrise
      simp only [List.mem_append, List.mem_singleton]
      rintro x (hx | rfl)
      · exact (hrise.2.2 x hx last (List.mem_singleton_self _)).le
      · exact le_rfl
    rw [List.getLast?_concat, Option.map_some, Option.elim_some]
    simp only [decide_eq_true_eq, Config.lastSecond]
    refine ⟨fun h => ?_, fun hs hx hb => ?_⟩
    · rcases h with h | ⟨x, hx, h⟩
      · rw [if_pos h]
      · have := hlast x hx
        split
        · rfl
        · rw [if_pos (by omega)]
    · have := hx last (by simp)
      rw [if_neg (by omega), if_neg (by omega), if_pos hb]

/-- R26: where every entry passes nothing fails. -/
theorem firstBadEntry_none {entries : List TariffEntry} (hrise : entries.Pairwise fun a b => a.start < b.start)
    (hgood : ∀ x ∈ entries, x.start ≤ 86399 ∧ x.band ≤ 3) : firstBadEntry 2 none entries = none := by
  have := firstBadEntry_append [] 2 none hrise hgood (by simp)
  rwa [List.append_nil] at this

/-- R26: WRITE TARIFF of entries as its owner judges them. -/
theorem ownWriteTariff_entries (entries : List TariffEntry) (s : State) :
    ownWriteTariff (entries.length :: (entries.flatMap TariffEntry.fields).map Prod.snd) s =
      (firstBadEntry 2 none entries).elim (done { s with clock := { s.clock with tariff := entries } } [])
        fun field => (s, some (refuse .range field)) := by
  rw [ownWriteTariff, List.drop_succ_cons, List.drop_zero, tariffEntries_fields]
  cases firstBadEntry 2 none entries <;> rfl

theorem exec_writeTariff_offered {s : State} {tag : Byte} {entries : List TariffEntry} (hlen : entries.length ≤ 8)
    (hfit : ∀ e ∈ entries, e.start < 16777216 ∧ e.band < 256)
    (h : Offered s .office 0x14 tag (be 1 entries.length ++ entries.flatMap fun e => be 3 e.start ++ be 1 e.band)) :
    exec (.writeTariff .office) s =
      .next (deliver .office ((firstBadEntry 2 none entries).elim
        (done { s.judged .office with clock := { s.clock with tariff := entries } } [])
        fun field => (s.judged .office, some (refuse .range field)))).transmit := by
  have hexec : exec (.writeTariff .office) s = ends (serve .office .writeTariff ownWriteTariff s) := rfl
  rw [hexec, serve_of_offered h rfl (parse_writeTariff hlen hfit), ownWriteTariff_entries, ends, State.judged_clock]

/-- Settles O12: the entries before the first bad field are passed over. -/
theorem writeTariffReplacesTheCalendar : Obligations.WriteTariffReplacesTheCalendar := by
  intro s tag entries hlen hfit h t
  rw [exec_writeTariff_offered hlen hfit h]
  refine ⟨fun hrise hgood => ?_, ?_⟩
  · rw [firstBadEntry_none hrise hgood]
    rfl
  · rintro good e more rfl hrise hgood
    obtain ⟨hstart, hband⟩ := firstBadEntry_at (more := more) (e := e) hrise hgood
    refine ⟨fun hbad => ?_, fun hs hx hb => ?_⟩
    · rw [hstart hbad]
      rfl
    · rw [hband hs hx hb]
      rfl

/-! ### SET SWEEP, SWEEP DUE -/

theorem exec_setSweep_offered {s : State} {tag : Byte} {interval limit : Nat} (hi : interval < 65536)
    (hl : limit < 4294967296) (h : Offered s .office 0x45 tag (be 2 interval ++ be 4 limit)) :
    exec (.setSweep .office) s = .next (deliver .office (ownSetSweep [interval, limit] (s.judged .office))).transmit :=
  exec_of_fields (row := .setSweep) rfl h rfl [(2, interval), (4, limit)] rfl (by simp [hi, hl]) (by simp [encodeFields])

theorem exec_sweepDue (s : State) : exec .sweepDue s = .next (sweepDue s).finish.transmit := rfl

/-- Settles O13: SET SWEEP by its checks; SWEEP DUE by the count and by what is in progress. -/
theorem sweepSettingsAndSweepDue : Obligations.SweepSettingsAndSweepDue := by
  refine ⟨?_, ?_, fun s hearly => ?_⟩
  · intro s tag interval limit hi hl h t
    rw [exec_setSweep_offered hi hl h]
    refine ⟨fun hbad => ?_, fun h60 h900 hbad => ?_, fun h60 h900 h1000 h4m => ?_⟩
    · simp [ownSetSweep, unlessRefused_cons, arg, hbad, deliver_some, State.replied, refuse, t]
    · simp [ownSetSweep, unlessRefused_cons, arg, Nat.not_lt.2 h60, Nat.not_lt.2 h900, hbad, deliver_some, State.replied,
        refuse, t]
    · simp [ownSetSweep, unlessRefused_cons, unlessRefused_nil, arg, Nat.not_lt.2 h60, Nat.not_lt.2 h900,
        Nat.not_lt.2 h1000, Nat.not_lt.2 h4m, deliver_done, State.replied, State.didReply, t]
  · intro s hdue u
    have hstep : sweepDue s = if u.billing.sweep.isNone && u.period.close.isNone then u.startSweep .timed else u := by
      simp [sweepDue, hdue, u]
    refine ⟨fun hsweep hclose => ?_, fun hbusy => ?_⟩
    · rw [exec_sweepDue, hstep, if_pos (by simp [u, hsweep, hclose])]
      rfl
    · rw [exec_sweepDue, hstep, if_neg]
      simpa [u, Option.isNone_iff_eq_none, imp_iff_not_or] using hbusy
  · rw [exec_sweepDue, sweepDue, if_neg (by omega)]

/-! ### The time base -/

theorem exec_timeBaseStep (s : State) : exec .timeBaseStep s = .next s.tick.transmit := rfl

theorem exec_wholeSecond (s : State) : exec .wholeSecond s = .next (wholeSecond s).transmit := rfl

/-- A set of a table whose used entries have all been changed alike. -/
theorem used_map {n : Nat} {α : Type} (t : Table n (Option α)) (f : α → α) (i : Nat) :
    (t.map fun r => r.map f).used i = (t.used i).map f := by
  simp only [Table.used, Table.get_map]
  rcases t.get i with _ | _ | r <;> rfl

theorem State.set_tick (s : State) (i : Nat) : s.tick.set i = (s.set i).map SetRecord.tick := used_map ..

theorem State.channel_tick (s : State) (c : Nat) :
    s.tick.channel c = (s.channel c).map fun x => { x with state := x.state.tick } := Table.get_map ..

theorem State.stage_tick (s : State) (k : Nat) :
    s.tick.stage k = (s.stage k).map fun x => { x with state := x.state.tick } := Table.get_map ..

/-- R30: a channel that is not SETTLING has no timer. -/
theorem ChannelState.tick_of_ne {q : ChannelState} (h : ∀ d n, q ≠ .settling d n) : q.tick = q := by
  cases q with
  | settling d n => exact absurd rfl (h d n)
  | idle => rfl
  | armed d => rfl
  | flowing d => rfl
  | halted d cause => rfl
  | heldLog r rank => rfl

/-- R30: a stage that is not CHANGING has no timer. -/
theorem StageState.tick_of_ne {q : StageState} (h : ∀ c, q ≠ .changing c) : q.tick = q := by
  cases q with
  | changing c => exact absurd rfl (h c)
  | unknown => rfl
  | dark => rfl
  | fed i => rfl
  | conflict => rfl

/-- R88: a whole second that is due. -/
theorem wholeSecond_of_due {s : State} (h : s.tenths = 10) :
    wholeSecond s =
      { s with
        tenths := 0
        sets := s.sets.map fun r => r.map fun r => if r.runs then r.count Counters.second else r } := by
  simp [wholeSecond, h]

theorem SetRecord.runs_iff (r : SetRecord) :
    r.runs = true ↔ (∃ x, r.report = some x ∧ x.engine = .running) ∧
      (r.state.name = .warming ∨ r.state.name = .online ∨ r.state.name = .cooling) := by
  cases hr : r.report <;> simp [runs, hr, or_assoc]

/-- R88: where a set has no lease nothing is counted. -/
theorem SetRecord.count_of_no_lease {r : SetRecord} (h : r.lease = none) (f : Counters → Counters) : r.count f = r := by
  cases r; cases h; rfl

/-- Settles O14: what a step of the time base and a whole second make of each set, channel and stage. -/
theorem timeBaseStepAndWholeSecond : Obligations.TimeBaseStepAndWholeSecond := by
  refine ⟨fun s => ⟨s.tick, exec_timeBaseStep s, ?_, rfl, rfl, fun i r h => ?_, fun i h => ?_, fun c x d n h hx => ?_,
    fun c x h hx => ?_, fun k x c h hx => ?_, fun k x h hx => ?_, rfl, rfl, rfl, rfl, rfl⟩, fun s hten => ?_⟩
  · simp [State.tick, Clock.tick]
  · rw [s.set_tick, h]; rfl
  · rw [s.set_tick, h]; rfl
  · rw [s.channel_tick, h, Option.map_some, hx]; rfl
  · rw [s.channel_tick, h, Option.map_some, ChannelState.tick_of_ne hx]
  · rw [s.stage_tick, h, Option.map_some, hx]; rfl
  · rw [s.stage_tick, h, Option.map_some, StageState.tick_of_ne hx]
  · rw [exec_wholeSecond, wholeSecond_of_due hten]
    refine ⟨_, rfl, rfl, fun i r l x h hl hx hrun hname => ?_, fun i r h hnot => ?_, fun i h => ?_, rfl⟩
    · refine (used_map ..).trans ?_
      rw [← State.set, h, Option.map_some, if_pos (r.runs_iff.2 ⟨⟨x, hx, hrun⟩, hname⟩), SetRecord.count, hl]
      rfl
    · refine (used_map ..).trans ?_
      rw [← State.set, h, Option.map_some, ite_eq_right_iff.2]
      intro hruns
      obtain ⟨⟨x, hx, hrun⟩, hname⟩ := r.runs_iff.1 hruns
      rcases hnot with hl | hr | ⟨y, hy, hoff⟩ | ⟨hw, ho, hc⟩
      · exact SetRecord.count_of_no_lease hl _
      · rw [hx] at hr; cases hr
      · rw [hx] at hy; cases hy; exact absurd hrun hoff
      · simp_all
    · refine (used_map ..).trans ?_
      rw [← State.set, h]
      rfl

end Sys2Proof.Machine
end

section
/-! PROOFS. The Tally controller's work list (09, 10): the window write-back, statements and rewrites, FLUSH TOTALS and INIT
TALLY, account updates. -/

namespace Sys2Proof.Machine

/-! ### Lines of the cache -/

theorem State.line_used {s : State} {n : Nat} {l : CacheLine} :
    s.tally.lines.used n = some l ↔ s.tally.lines.get n = some (some l) := Option.join_eq_some_iff

/-- R171: a dirty line is written back and is clean. -/
theorem State.writeBack_dirty {s : State} {n a : Nat} {r : AccountRecord}
    (h : s.tally.lines.get n = some (some ⟨true, a, r⟩)) :
    s.writeBack n = ((s.writeRecord a r).setLine n (some ⟨false, a, r⟩), true) := by
  rw [writeBack, line_used.2 h]
  rfl

/-- R171: a line that is clean or invalid is left alone. -/
theorem State.writeBack_clean {s : State} {n : Nat} (h : ∀ l, s.tally.lines.get n = some (some l) → l.dirty = false) :
    s.writeBack n = (s, false) := by
  rw [writeBack]
  cases hl : s.tally.lines.used n with
  | none => rfl
  | some l => simp [h l (line_used.1 hl)]

/-- R167: the line of an account holds it. -/
theorem State.lineHolding_of_line {s : State} {a : Nat} {l : CacheLine} (h : s.tally.lines.get (a % 64) = some (some l))
    (ha : l.account = a) : s.lineHolding a = some l := by
  rw [lineHolding, lineOf, line_used.2 h]
  simp [ha]

theorem State.lineHolding_of_no_line {s : State} {a : Nat}
    (h : ∀ l, s.tally.lines.get (a % 64) = some (some l) → l.account ≠ a) : s.lineHolding a = none := by
  rw [lineHolding, lineOf, Option.filter_eq_none_iff]
  exact fun l hl => by simpa using h l (line_used.1 hl)

/-! ### The window write-back -/

theorem exec_windowWriteBackStep (s : State) :
    exec .windowWriteBackStep s = .next (windowWriteBackStep s).transmit := rfl

theorem windowWriteBackStep_writeBack {s : State} {n : Nat} {rest : List WorkOp}
    (h : Performs s.tally.work (.windowWriteBack .writeBack n) rest) :
    windowWriteBackStep s =
      (({ s with tally := { s.tally with work := rest } } : State).writeBack n).1.requeue
        (if n < 63 then .windowWriteBack .writeBack (n + 1) else .windowWriteBack .invalidate 0) :=
  State.performNext_of_performs h rfl _

theorem windowWriteBackStep_invalidate {s : State} {n : Nat} {rest : List WorkOp}
    (h : Performs s.tally.work (.windowWriteBack .invalidate n) rest) :
    windowWriteBackStep s =
      let u := ({ s with tally := { s.tally with work := rest } } : State).invalidateDirect n
      if n < 63 then u.requeue (.windowWriteBack .invalidate (n + 1)) else u.answer .office (.done []) :=
  State.performNext_of_performs h rfl _

/-- R42: the second pass makes a line invalid whose account is DIRECT. -/
theorem State.invalidateDirect_of_direct {s : State} {n : Nat} {l : CacheLine}
    (h : s.tally.lines.get n = some (some l)) (hd : s.windows.mode l.account = .direct) :
    s.invalidateDirect n = s.setLine n none := by
  rw [invalidateDirect, line_used.2 h]
  simp [hd]

theorem State.invalidateDirect_of_not {s : State} {n : Nat}
    (h : ∀ l, s.tally.lines.get n = some (some l) → s.windows.mode l.account ≠ .direct) : s.invalidateDirect n = s := by
  rw [invalidateDirect]
  cases hl : s.tally.lines.used n with
  | none => rfl
  | some l => simp [h l (line_used.1 hl)]

/-- Settles O17: each pass by what it makes of its line. -/
theorem windowWriteBackVisitsALine : Obligations.WindowWriteBackVisitsALine := by
  intro s n rest hn u
  refine ⟨fun hperf => ⟨fun a r hl => ?_, fun hclean => ?_⟩, fun hperf v hv => ?_⟩
  · rw [exec_windowWriteBackStep, windowWriteBackStep_writeBack hperf, State.writeBack_dirty (s := u) hl]
  · rw [exec_windowWriteBackStep, windowWriteBackStep_writeBack hperf, State.writeBack_clean (s := u) hclean]
  · have hvisit : u.invalidateDirect n = v := by
      rcases hv with ⟨⟨l, hl, hd⟩, rfl⟩ | ⟨hnot, rfl⟩
      · exact State.invalidateDirect_of_direct (s := u) hl hd
      · exact State.invalidateDirect_of_not (s := u) hnot
    rw [exec_windowWriteBackStep, windowWriteBackStep_invalidate hperf]
    refine ⟨fun h => ?_, fun h => ?_⟩
    · simp only [u] at hvisit
      simp only [hvisit, if_pos h]
    · simp only [u] at hvisit
      simp only [hvisit, if_neg (show ¬n < 63 by omega)]
      rfl

/-! ### Reads leave the clock, the period and the windows -/

theorem State.readCorrected_period (s : State) (a : Nat) (r : AccountRecord) (words first : Nat) (op : ReadOp) :
    (s.readCorrected a r words first op).period = s.period := by
  rw [readCorrected]
  dsimp only
  split <;> simp [fillLatch]

theorem State.readCorrected_clock (s : State) (a : Nat) (r : AccountRecord) (words first : Nat) (op : ReadOp) :
    (s.readCorrected a r words first op).clock = s.clock := by
  rw [readCorrected]
  dsimp only
  split <;> simp [fillLatch]

theorem State.readCorrected_windows (s : State) (a : Nat) (r : AccountRecord) (words first : Nat) (op : ReadOp) :
    (s.readCorrected a r words first op).windows = s.windows := by
  rw [readCorrected]
  dsimp only
  split <;> simp [fillLatch]

theorem State.fetchRecord_of_good {s : State} {a : Nat} {r : AccountRecord} (h : s.readRecord a = .good r) (op : ReadOp) :
    s.fetchRecord a op = (s, some r) := by
  rw [fetchRecord, h]

theorem State.fetchRecord_of_corrected {s : State} {a words first : Nat} {r : AccountRecord}
    (h : s.readRecord a = .corrected r words first) (op : ReadOp) :
    s.fetchRecord a op = (s.readCorrected a r words first op, some r) := by
  rw [fetchRecord, h]

theorem State.fetchRecord_of_uncorrectable {s : State} {a word : Nat} (h : s.readRecord a = .uncorrectable word)
    (op : ReadOp) : s.fetchRecord a op = (s.readFailed a word op, none) := by
  rw [fetchRecord, h]

/-! ### STATEMENT -/

theorem exec_statement_offered {s : State} {p : Port} {tag : Byte} {a : Nat} (ha : a < 65536)
    (h : Offered s p 0x48 tag (be 2 a)) :
    exec (.statement p) s = .next (deliver p (ownStatement p [a] (s.judged p))).transmit :=
  exec_of_fields (row := .statement) rfl h (by cases p <;> rfl) [(2, a)] rfl (by simpa using ha) (by simp [encodeFields])

theorem exec_performStatement {s : State} {p : Port} {a : Nat} {rest : List WorkOp}
    (h : Performs s.tally.work (.statement p a) rest) :
    let t : State := { s with tally := { s.tally with work := rest } }
    exec .performStatement s = .next ((t.statementOf a).1.replied p (t.statementOf a).2) :=
  congrArg (fun u : State => (.next u.transmit : Result)) (State.performNext_of_performs h rfl _)

theorem State.quarantined_iff (s : State) (a : Nat) : s.quarantined a = true ↔ a ∈ s.tally.quarantine := by
  simp [quarantined]

theorem State.statementOf_absent {s : State} {a : Nat} (h : s.bankPresent a = false) :
    s.statementOf a = (s, refuse .absent 1) := by
  simp [statementOf, h]

theorem State.statementOf_quarantined {s : State} {a : Nat} (h : s.bankPresent a = true) (hq : a ∈ s.tally.quarantine) :
    s.statementOf a = (s, refuse .state 1) := by
  simp [statementOf, h, (s.quarantined_iff a).2 hq]

/-- R172: the cache or tally memory tells the record. -/
theorem State.statementOf_eq {s : State} {a : Nat} (h : s.bankPresent a = true) (hq : a ∉ s.tally.quarantine) :
    s.statementOf a =
      (s.lineHolding a).elim
        ((s.fetchRecord a .statement).2.elim ((s.fetchRecord a .statement).1, refuse .state 1) fun r =>
          ((s.fetchRecord a .statement).1, .done ((s.fetchRecord a .statement).1.statementData a 0 r)))
        fun l => (s, .done (s.statementData a (if l.dirty then 2 else 1) l.record)) := by
  have hnot : s.quarantined a = false := by
    rw [Bool.eq_false_iff, Ne, quarantined_iff]
    exact hq
  rw [statementOf, h, hnot]
  cases s.lineHolding a with
  | some l => rfl
  | none => rcases s.fetchRecord a .statement with ⟨t, _ | r⟩ <;> rfl

/-- What a statement tells depends on the record, the period and the windows alone. -/
theorem State.statementData_congr {s t : State} (hp : t.period = s.period) (hw : t.windows = s.windows) (a source : Nat)
    (r : AccountRecord) : t.statementData a source r = s.statementData a source r := by
  simp only [statementData, hp, hw]

/-! ### REWRITE ACCOUNT -/

/-- The fields of a REWRITE ACCOUNT with their widths (10, section 10.7). -/
def rewritePayload (a : Nat) (w : List Nat) (festival mark_ straddles : Nat) : List (Nat × Nat) :=
  (2, a) :: (w.map fun x => (4, x)) ++ [(5, festival), (1, mark_), (2, straddles)]

theorem encodeFields_rewritePayload (a : Nat) (w : List Nat) (festival mark_ straddles : Nat) :
    encodeFields (rewritePayload a w festival mark_ straddles) =
      be 2 a ++ (w.flatMap fun x => be 4 x) ++ be 5 festival ++ be 1 mark_ ++ be 2 straddles := by
  simp [encodeFields, rewritePayload, List.flatMap_map]

theorem exec_rewriteAccount_offered {s : State} {tag : Byte} {a mark_ straddles festival : Nat} {w : List Nat}
    (hlen : w.length = 10) (hfit : ∀ x ∈ rewritePayload a w festival mark_ straddles, x.2 < 256 ^ x.1)
    (h : Offered s .office 0x49 tag
      (be 2 a ++ (w.flatMap fun x => be 4 x) ++ be 5 festival ++ be 1 mark_ ++ be 2 straddles)) :
    exec (.rewriteAccount .office) s =
      .next (deliver .office
        (ownRewriteAccount ((a :: w) ++ [festival, mark_, straddles]) (s.judged .office))).transmit := by
  have hlayout : RequestRow.rewriteAccount.layout =
      .fixed ((rewritePayload a w festival mark_ straddles).map Prod.fst) := by
    simp [rewritePayload, Function.comp_def, List.map_const', hlen, RequestRow.rewriteAccount]
  have hvalues : (rewritePayload a w festival mark_ straddles).map Prod.snd = (a :: w) ++ [festival, mark_, straddles] := by
    simp [rewritePayload, Function.comp_def]
  rw [exec_of_fields (row := .rewriteAccount) (owner := ownRewriteAccount) rfl h rfl _ hlayout hfit
    (encodeFields_rewritePayload ..), hvalues]

/-- The fields of a REWRITE ACCOUNT by their numbers. -/
theorem arg_rewrite {a festival mark_ straddles : Nat} {w : List Nat} (hlen : w.length = 10) :
    let f := (a :: w) ++ [festival, mark_, straddles]
    arg f 1 = a ∧ (∀ k < 10, arg f (k + 2) = w.getD k 0) ∧ arg f 12 = festival ∧ arg f 13 = mark_ ∧ arg f 14 = straddles := by
  refine ⟨rfl, fun k hk => ?_, ?_, ?_, ?_⟩
  · simp [arg, List.getElem?_append, hlen, hk]
  all_goals simp [arg, hlen]

theorem exec_performRewrite {s : State} {a : Nat} {r : AccountRecord} {rest : List WorkOp}
    (h : Performs s.tally.work (.rewrite a r) rest) :
    exec .performRewrite s =
      .next ((({ s with tally := { s.tally with work := rest } } : State).rewriteRecord a r).transmit) :=
  congrArg (fun u : State => (.next u.transmit : Result)) (State.performNext_of_performs h rfl _)

/-- R186: a rewrite performed, where a line holds the account. -/
theorem State.rewriteRecord_of_line {s : State} {a : Nat} {r : AccountRecord} {l : CacheLine}
    (h : s.lineHolding a = some l) :
    s.rewriteRecord a r =
      let q : AccountRecord := { r with period := BitVec.ofNat 8 s.period.number }
      let v := (s.writeRecord a q).setLine (a % 64) (some ⟨false, a, q⟩)
      ({ v with tally := { v.tally with quarantine := v.tally.quarantine.filter fun x => x != a } } : State).answer .office
        (.done (be 1 v.period.number ++ be 1 (flag (s.quarantined a)))) := by
  have hline (q : AccountRecord) : (s.writeRecord a q).lineHolding a = some l := by
    rw [← h, lineHolding, Sound.tally_writeRecord, lineHolding]
  simp only [rewriteRecord, hline, lineOf, Option.isSome_some, if_true]

theorem State.rewriteRecord_of_no_line {s : State} {a : Nat} {r : AccountRecord} (h : s.lineHolding a = none) :
    s.rewriteRecord a r =
      let q : AccountRecord := { r with period := BitVec.ofNat 8 s.period.number }
      let v := s.writeRecord a q
      ({ v with tally := { v.tally with quarantine := v.tally.quarantine.filter fun x => x != a } } : State).answer .office
        (.done (be 1 v.period.number ++ be 1 (flag (s.quarantined a)))) := by
  have hline (q : AccountRecord) : (s.writeRecord a q).lineHolding a = none := by
    rw [← h, lineHolding, Sound.tally_writeRecord, lineHolding]
  simp only [rewriteRecord, hline, Option.isSome_none, Bool.false_eq_true, if_false]

/-- Settles O45: the two requests by their checks, the two operations by what they find in the cache and in memory. -/
theorem statementsAndRewrites : Obligations.StatementsAndRewrites := by
  refine ⟨?_, ?_, ?_, ?_⟩
  · intro s p tag a ha h t
    rw [exec_statement_offered ha h]
    refine ⟨fun hbad => ?_, fun hgood => ?_⟩
    · simp [ownStatement, unlessRefused_cons, arg, hbad, deliver_some, State.replied, refuse, t]
    · simp [ownStatement, unlessRefused_cons, unlessRefused_nil, arg, Nat.not_lt.2 hgood, deliver_none, t]
  · intro s p a rest hperf t shown present
    have hdata (source : Nat) (r : AccountRecord) : t.statementData a source r = shown source r := rfl
    have hexec : exec .performStatement s = .next ((t.statementOf a).1.replied p (t.statementOf a).2) :=
      exec_performStatement hperf
    rw [hexec]
    refine ⟨fun habs => ?_, fun hpres hq => ?_, fun hpres hq => ⟨fun l hl ha => ?_, fun hno => ?_⟩⟩
    · rw [State.statementOf_absent (s := t) habs]
      rfl
    · rw [State.statementOf_quarantined (s := t) hpres hq]
      rfl
    · rw [State.statementOf_eq (s := t) hpres hq, State.lineHolding_of_line (s := t) hl ha]
      rfl
    · rw [State.statementOf_eq (s := t) hpres hq, State.lineHolding_of_no_line (s := t) hno]
      refine ⟨fun r hr => ?_, fun r words first hr => ?_, fun w hr => ?_⟩
      · rw [State.fetchRecord_of_good (s := t) hr]
        rfl
      · rw [State.fetchRecord_of_corrected (s := t) hr, ← hdata, ← State.statementData_congr
          (t.readCorrected_period a r words first .statement) (t.readCorrected_windows a r words first .statement)]
        rfl
      · rw [State.fetchRecord_of_uncorrectable (s := t) hr]
        rfl
  · intro s tag a mark_ straddles w festival ha hmark hstraddles hlen hw hfestival payload h t word
    have hfit : ∀ x ∈ rewritePayload a w festival mark_ straddles, x.2 < 256 ^ x.1 := by
      simp [rewritePayload, or_imp, forall_and, ha, hmark, hstraddles, hfestival]
      exact hw
    have hexec := exec_rewriteAccount_offered hlen hfit h
    obtain ⟨h1, hwords, h12, h13, h14⟩ := arg_rewrite (a := a) (festival := festival) (mark_ := mark_)
      (straddles := straddles) hlen
    simp only [ownRewriteAccount, rewriteFields, h1, hwords 0 (by decide), hwords 1 (by decide), hwords 2 (by decide),
      hwords 3 (by decide), hwords 4 (by decide), hwords 5 (by decide), hwords 6 (by decide), hwords 7 (by decide),
      hwords 8 (by decide), hwords 9 (by decide), h12, h13, h14] at hexec
    exact firstDecides_of (fun x => exec (.rewriteAccount .office) s = .next (deliver .office x).transmit) hexec
  · intro s a r rest hperf q written gone reply
    let t : State := { s with tally := { s.tally with work := rest } }
    have hexec : exec .performRewrite s = .next (t.rewriteRecord a r).transmit := exec_performRewrite hperf
    obtain ⟨mem, hmem⟩ := State.Sound.writeRecord_eq t a q
    have hwritten : written = { t with tallyMem := mem } := hmem
    clear_value written
    subst hwritten
    rw [hexec]
    refine ⟨fun l hl ha => ?_, fun hno => ?_⟩
    · rw [State.rewriteRecord_of_line (s := t) (State.lineHolding_of_line hl ha)]
      simp only [q, t] at hmem
      simp only [t, hmem]
      rfl
    · rw [State.rewriteRecord_of_no_line (s := t) (State.lineHolding_of_no_line hno)]
      simp only [q, t] at hmem
      simp only [t, hmem]
      rfl

end Sys2Proof.Machine
end

section
/-! PROOFS. FLUSH TOTALS, INIT TALLY and account updates, performed step by step (09, 10). -/

namespace Sys2Proof.Machine

/-! ### FLUSH TOTALS -/

theorem exec_flushStep {s : State} {n written : Nat} {rest : List WorkOp}
    (h : Performs s.tally.work (.flush n written) rest) :
    let t : State := { s with tally := { s.tally with work := rest } }
    exec .flushStep s =
      .next (if n < 63 then (t.writeBack n).1.requeue (.flush (n + 1) (written + flag (t.writeBack n).2))
        else (t.writeBack n).1.answer .office (.done (be 1 (written + flag (t.writeBack n).2)))).transmit :=
  congrArg (fun u : State => (.next u.transmit : Result)) (State.performNext_of_performs h rfl _)

/-! ### INIT TALLY -/

/-- R187: what keeps INIT TALLY from the list. -/
def State.initBusy (s : State) : Bool :=
  s.billing.sweep.isSome || s.period.close.isSome || s.anyChanging ||
    s.billing.streams.cells.any fun x => !x.requests.isEmpty

theorem Stage.isChanging_iff (k : Stage) : k.isChanging = true ↔ ∃ c, k.state = .changing c := by
  rw [isChanging, context]
  cases k.state <;> simp

theorem State.anyChanging_iff (s : State) : s.anyChanging = true ↔ ∃ k ∈ s.stages.cells, ∃ c, k.state = .changing c := by
  simp only [anyChanging, anyStage, List.any_eq_true, Stage.isChanging_iff]

theorem State.initBusy_iff (s : State) :
    s.initBusy = true ↔
      s.billing.sweep ≠ none ∨ s.period.close ≠ none ∨ (∃ k ∈ s.stages.cells, ∃ c, k.state = .changing c) ∨
        ∃ x ∈ s.billing.streams.cells, x.requests ≠ [] := by
  simp only [initBusy, Bool.or_eq_true, anyChanging_iff, Option.isSome_iff_ne_none, List.any_eq_true, Bool.not_eq_true',
    List.isEmpty_eq_false_iff, or_assoc]

theorem exec_initTally_offered {s : State} {tag : Byte} (h : Offered s .office 0x4B tag []) :
    exec (.initTally .office) s =
      .next (deliver .office (unlessRefused (s.judged .office) [(s.initBusy, refuse .state 0)]
        ((s.judged .office).requeue (.initTally false 0 0), none))).transmit :=
  exec_of_empty (row := .initTally) (owner := ownInitTally) rfl h rfl rfl

theorem exec_initTallyStep {s : State} {begun : Bool} {n written : Nat} {rest : List WorkOp}
    (h : Performs s.tally.work (.initTally begun n written) rest) :
    let t : State :=
      { s with
        tally := { s.tally with work := rest, lines := if begun then s.tally.lines else Table.replicate 64 none } }
    exec .initTallyStep s = .next (t.initAccount n written).transmit := by
  refine congrArg (fun u : State => (.next u.transmit : Result)) ((State.performNext_of_performs h rfl _).trans ?_)
  cases begun <;> rfl

/-- R188: where an account lies before the end, it is written; the last one ends INIT TALLY. -/
theorem State.initAccount_eq (s : State) (n written : Nat) :
    s.initAccount n written =
      let a := if s.tally.bank0 then n else max n 512
      if s.tally.endAccount ≤ a then s.initEnds written
      else
        let v := s.writeRecord a (zeroRecord s.period.number)
        if a + 1 < s.tally.endAccount then v.requeue (.initTally true (a + 1) (written + 1)) else v.initEnds (written + 1) := by
  rw [initAccount]
  dsimp only
  rw [Sound.tally_writeRecord]
  rfl

/-- R188: the end of the accounts, where some bank is present. -/
theorem Tally.endAccount_of_present {t : Tally} (h : t.bank0 = true ∨ t.bank1 = true) :
    t.endAccount = (if t.bank1 then 1023 else 511) + 1 := by
  cases h1 : t.bank1 <;> simp_all [endAccount]

theorem Tally.endAccount_of_absent {t : Tally} (h : ¬(t.bank0 = true ∨ t.bank1 = true)) : t.endAccount = 0 := by
  simp_all [endAccount]

/-- Settles O46: the two requests, and each step by what its line or account is. -/
theorem flushAndInitialise : Obligations.FlushAndInitialise := by
  refine ⟨fun s tag h => ?_, ?_, ?_, ?_⟩
  · exact exec_of_empty (row := .flushTotals) (owner := ownFlushTotals) rfl h rfl rfl
  · intro s n written rest hn hperf t v count hv
    have hexec : exec .flushStep s = .next _ := exec_flushStep hperf
    have hstep : (t.writeBack n).1 = v ∧ written + flag (t.writeBack n).2 = count := by
      rcases hv with ⟨a, r, hl, rfl, rfl⟩ | ⟨hclean, rfl, rfl⟩
      · rw [State.writeBack_dirty (s := t) hl]
        exact ⟨rfl, rfl⟩
      · rw [State.writeBack_clean (s := t) hclean]
        exact ⟨rfl, rfl⟩
    rw [hexec, hstep.1, hstep.2]
    refine ⟨fun h => by rw [if_pos h], fun h => ?_⟩
    rw [if_neg (by omega)]
    rfl
  · intro s tag h t busy
    have hbusy : s.initBusy = true ↔ busy := s.initBusy_iff
    rw [exec_initTally_offered h, unlessRefused_cons, unlessRefused_nil]
    refine ⟨fun hb => ?_, fun hb => ?_⟩
    · rw [if_pos (hbusy.2 hb)]
      rfl
    · rw [if_neg (fun hc => hb (hbusy.1 hc)), deliver_none]
  · intro s begun n written rest hperf present a last t v
    have hexec : exec .initTallyStep s = .next (t.initAccount n written).transmit := exec_initTallyStep hperf
    have haccount : t.initAccount n written =
        if t.tally.endAccount ≤ a then t.initEnds written
        else if a + 1 < t.tally.endAccount then v.requeue (.initTally true (a + 1) (written + 1))
        else v.initEnds (written + 1) := t.initAccount_eq n written
    have hquarantine : v.tally.quarantine = s.tally.quarantine := by
      have : v.tally = t.tally := State.Sound.tally_writeRecord ..
      rw [this]
    rw [hexec, haccount]
    refine ⟨fun hp hlt => ?_, fun hp hlast => ?_, fun hend => ?_⟩
    · have hcount : t.tally.endAccount = last + 1 := Tally.endAccount_of_present hp
      rw [if_neg (by omega), if_pos (by omega)]
    · have hcount : t.tally.endAccount = last + 1 := Tally.endAccount_of_present hp
      rw [if_neg (by omega), if_neg (by omega), State.initEnds, hquarantine]
      rfl
    · have hcount : t.tally.endAccount ≤ a := by
        by_cases hp : present
        · have : t.tally.endAccount = last + 1 := Tally.endAccount_of_present hp
          have : last < a := hend.resolve_left (not_not.2 hp)
          omega
        · have : t.tally.endAccount = 0 := Tally.endAccount_of_absent hp
          omega
      rw [if_pos hcount]
      rfl

/-! ### Account updates -/

/-- R188: where no INIT TALLY is outstanding, the update in front is the operation performed. -/
theorem takeFront_update {u : AccountUpdate} {rest : List WorkOp} (h : ∀ o ∈ rest, o.isInit = false) :
    takeFront (.update u :: rest) = some (.update u, rest) := by
  have hany : (WorkOp.update u :: rest).any WorkOp.isInit = false := by
    rw [List.any_eq_false]
    simpa using ⟨rfl, h⟩
  simp [takeFront, hany, List.findIdx_cons]

/-- R188: while INIT TALLY is outstanding the operation performed is no update. -/
theorem takeFront_of_init {work : List WorkOp} {o : WorkOp} (ho : o ∈ work) (hi : o.isInit = true) :
    ∃ x rest, takeFront work = some (x, rest) ∧ x.isUpdate = false := by
  have hany : work.any WorkOp.isInit = true := List.any_eq_true.2 ⟨o, ho, hi⟩
  have hnot : o.isUpdate = false := by cases o <;> first | rfl | cases hi
  have hlt : work.findIdx (fun x => !(true && x.isUpdate)) < work.length :=
    List.findIdx_lt_length_of_exists ⟨o, ho, by simp [hnot]⟩
  refine ⟨work[work.findIdx fun x => !(true && x.isUpdate)], _, by simp only [takeFront, hany, List.getElem?_eq_getElem hlt]; rfl, ?_⟩
  simpa using List.findIdx_getElem (w := hlt)

/-- R165: the operation taken is the one performed. -/
theorem State.performNext_of_takeFront {s : State} {o : WorkOp} {rest : List WorkOp}
    (h : takeFront s.tally.work = some (o, rest)) (f : WorkOp → Option (State → State)) :
    s.performNext f = (f o).elim s fun g => g { s with tally := { s.tally with work := rest } } := by
  cases hf : f o <;> simp only [performNext, h, hf] <;> rfl

theorem exec_accountUpdate {s : State} {u : AccountUpdate} {rest : List WorkOp}
    (hwork : s.tally.work = .update u :: rest) (h : ∀ o ∈ rest, o.isInit = false) :
    let t : State := { s with tally := { s.tally with work := rest } }
    exec .accountUpdate s = .next ((t.performUpdate u).1.endBilling u.source (t.performUpdate u).2).finish.transmit := by
  have htake : takeFront s.tally.work = some (.update u, rest) := by rw [hwork, takeFront_update h]
  exact congrArg (fun v : State => (.next v.finish.transmit : Result)) (State.performNext_of_takeFront htake _)

/-- R188: an update that is passed over is not performed. -/
theorem exec_accountUpdate_of_init {s : State} {o : WorkOp} (ho : o ∈ s.tally.work) (hi : o.isInit = true) :
    exec .accountUpdate s = .next s.finish.transmit := by
  obtain ⟨x, rest, htake, hx⟩ := takeFront_of_init ho hi
  refine congrArg (fun v : State => (.next v.finish.transmit : Result))
    ((State.performNext_of_takeFront htake _).trans ?_)
  cases x with
  | update u => cases hx
  | _ => rfl

/-- R166: an update of a quarantined account. -/
theorem State.performUpdate_quarantined {s : State} {u : AccountUpdate} (h : u.account ∈ s.tally.quarantine) :
    s.performUpdate u = (s, .quarantined) := by
  rw [performUpdate, if_pos ((s.quarantined_iff _).2 h)]

/-- R168 to R170: an update of an account that its line holds. -/
theorem State.performUpdate_held {s : State} {u : AccountUpdate} {l : CacheLine} (hq : u.account ∉ s.tally.quarantine)
    (h : s.lineHolding u.account = some l) :
    s.performUpdate u =
      (s.keepLine u.account (s.updated l.record u) (s.windows.mode u.account), .performed) := by
  rw [performUpdate, if_neg (mt (s.quarantined_iff _).1 hq), h]

/-- R170: a DIRECT update reads and writes the record. -/
theorem State.performUpdate_direct {s : State} {u : AccountUpdate} (hq : u.account ∉ s.tally.quarantine)
    (h : s.lineHolding u.account = none) (hm : s.windows.mode u.account = .direct) :
    s.performUpdate u = s.directUpdate u := by
  rw [performUpdate, if_neg (mt (s.quarantined_iff _).1 hq), h, hm]

/-- R168, R169: every other update fills its line. -/
theorem State.performUpdate_fill {s : State} {u : AccountUpdate} (hq : u.account ∉ s.tally.quarantine)
    (h : s.lineHolding u.account = none) (hm : s.windows.mode u.account ≠ .direct) :
    s.performUpdate u = s.fillUpdate u (s.windows.mode u.account) := by
  rw [performUpdate, if_neg (mt (s.quarantined_iff _).1 hq), h]
  cases hmode : s.windows.mode u.account with
  | held => rfl
  | through => rfl
  | direct => exact absurd hmode hm

/-- What a read of an account's record gives, and what it leaves. -/
def State.Fetched (v : State) (a : Nat) (op : ReadOp) (w : State) (r : AccountRecord) : Prop :=
  (v.readRecord a = .good r ∧ w = v) ∨
    ∃ words first, v.readRecord a = .corrected r words first ∧ w = v.readCorrected a r words first op

theorem State.fetchRecord_of_fetched {v w : State} {a : Nat} {op : ReadOp} {r : AccountRecord} (h : v.Fetched a op w r) :
    v.fetchRecord a op = (w, some r) := by
  rcases h with ⟨hr, rfl⟩ | ⟨words, first, hr, rfl⟩
  · exact fetchRecord_of_good hr op
  · exact fetchRecord_of_corrected hr op

/-- The new values of a record depend on the period, the calendar and the second alone. -/
theorem State.updated_of_fetched {v w : State} {a : Nat} {op : ReadOp} {r : AccountRecord} (h : v.Fetched a op w r)
    (x : AccountRecord) (u : AccountUpdate) : w.updated x u = v.updated x u := by
  rcases h with ⟨_, rfl⟩ | ⟨words, first, _, rfl⟩
  · rfl
  · simp only [updated, band, readCorrected_period, readCorrected_clock]

theorem State.directUpdate_of_fetched {s w : State} {u : AccountUpdate} {r : AccountRecord}
    (h : s.Fetched u.account .update w r) :
    s.directUpdate u = (w.writeRecord u.account (s.updated r u), .performed) := by
  rw [directUpdate, fetchRecord_of_fetched h]
  dsimp only
  rw [updated_of_fetched h]

theorem State.directUpdate_of_uncorrectable {s : State} {u : AccountUpdate} {k : Nat}
    (h : s.readRecord u.account = .uncorrectable k) : s.directUpdate u = (s.readFailed u.account k .update, .unreadable) := by
  rw [directUpdate, fetchRecord_of_uncorrectable h]

theorem State.fillUpdate_of_fetched {s v w : State} {u : AccountUpdate} {r : AccountRecord} {m : TotalMode}
    (hv : (s.writeBack (u.account % 64)).1 = v) (h : v.Fetched u.account .fill w r) :
    s.fillUpdate u m = (w.keepLine u.account (v.updated r u) m, .performed) := by
  rw [fillUpdate, fill, lineOf, hv, fetchRecord_of_fetched h]
  dsimp only
  rw [updated_of_fetched h]

theorem State.fillUpdate_of_uncorrectable {s v : State} {u : AccountUpdate} {m : TotalMode} {k : Nat}
    (hv : (s.writeBack (u.account % 64)).1 = v) (h : v.readRecord u.account = .uncorrectable k) :
    s.fillUpdate u m = (v.readFailed u.account k .fill, .unreadable) := by
  rw [fillUpdate, fill, lineOf, hv, fetchRecord_of_uncorrectable h]

/-- A write-back leaves what an update's new values depend on. -/
theorem State.updated_writeBack (s : State) (n : Nat) (x : AccountRecord) (u : AccountUpdate) :
    (s.writeBack n).1.updated x u = s.updated x u := by
  rw [writeBack]
  cases s.tally.lines.used n with
  | none => rfl
  | some l =>
    dsimp only
    split
    · simp only [updated, band, setLine_period, setLine_clock, writeRecord_period, writeRecord_clock]
    · rfl

/-! ### The new values of a record -/

/-- A counter that saturates, as a number. -/
theorem toNat_satAdd {w : Nat} (x : BitVec w) (n : Nat) : (satAdd x n).toNat = min (x.toNat + n) (2 ^ w - 1) := by
  have hpos : 0 < 2 ^ w := Nat.two_pow_pos w
  rw [satAdd, BitVec.toNat_ofNat, Nat.mod_eq_of_lt (by omega)]

/-- R166, step 5: the band's energy alone goes up. -/
theorem Bands.toNat_add (b : Bands) (band n : Nat) :
    (b.add band n).b0.toNat = (if band = 0 then min (b.b0.toNat + n) 4294967295 else b.b0.toNat) ∧
      (b.add band n).b1.toNat = (if band = 1 then min (b.b1.toNat + n) 4294967295 else b.b1.toNat) ∧
      (b.add band n).b2.toNat = (if band = 2 then min (b.b2.toNat + n) 4294967295 else b.b2.toNat) ∧
      (b.add band n).b3.toNat = (if 3 ≤ band then min (b.b3.toNat + n) 4294967295 else b.b3.toNat) := by
  match band with
  | 0 => simp [Bands.add, toNat_satAdd]
  | 1 => simp [Bands.add, toNat_satAdd]
  | 2 => simp [Bands.add, toNat_satAdd]
  | k + 3 => simp [Bands.add, toNat_satAdd]

/-! ### The end of a billing -/

theorem find?_of_first {α : Type} {p : α → Bool} {before after : List α} {b : α} (hb : p b = true)
    (h : ∀ x ∈ before, p x = false) : (before ++ b :: after).find? p = some b := by
  rw [List.find?_append, List.find?_eq_none.2 (by simpa using h)]
  simp [hb]

theorem State.applyOutcome_waiters (s : State) (b : Billing) (o : UpdateOutcome) :
    (s.applyOutcome b o).billing.waiters = s.billing.waiters := by
  unfold applyOutcome
  split
  · rfl
  · cases o <;> rfl

theorem State.endBilling_of_none {s : State} {src : Source} (h : ∀ b ∈ s.billing.inFlight, b.source ≠ src)
    (o : UpdateOutcome) : s.endBilling src o = s := by
  rw [endBilling, List.find?_eq_none.2 (by simpa using h)]

/-- R160, R162: the first billing of the source ends. -/
theorem State.endBilling_of_find {s : State} {src : Source} {b : Billing}
    (h : s.billing.inFlight.find? (fun b => b.source == src) = some b) (o : UpdateOutcome) :
    s.endBilling src o =
      (passMark b.circuit s.billing.waiters.length
        (({ s with
          billing := { s.billing with inFlight := s.billing.inFlight.filter fun x => x.source != src } } :
            State).applyOutcome b o)).goOn src := by
  rw [endBilling, h]
  dsimp only
  rw [applyOutcome_waiters]

theorem State.passMark_of_none {s : State} {c : Nat} (n : Nat) (h : ∀ w ∈ s.billing.waiters, w.circuit ≠ c) :
    passMark c n s = s := by
  cases n with
  | zero => rfl
  | succ n => rw [passMark, List.find?_eq_none.2 (by simpa using h)]

/-- R160: the source that reached the circuit first starts. -/
theorem State.passMark_of_first {s : State} {c : Nat} (n : Nat) {w : Waiter} {before after : List Waiter}
    (hs : s.billing.waiters = before ++ w :: after) (hw : w.circuit = c) (h : ∀ x ∈ before, x.circuit ≠ c) :
    let run := ({ s with billing := { s.billing with waiters := before ++ after } } : State).runBilling w.source c
    passMark c (n + 1) s = if run.2 = true then run.1 else passMark c n (run.1.goOn w.source) := by
  intro run
  have hfind : s.billing.waiters.find? (fun w => w.circuit == c) = some w := by
    rw [hs]
    exact find?_of_first (beq_iff_eq.2 hw) fun x hx => by simpa using h x hx
  have herase : s.billing.waiters.erase w = before ++ after := by
    rw [hs, List.erase_append_right _ fun hmem => h w hmem hw, List.erase_cons_head]
  rw [passMark, hfind]
  dsimp only
  rw [herase]
  change (match run with | (s, true) => s | (s, false) => passMark c n (s.goOn w.source)) = _
  rcases run with ⟨t, _ | _⟩ <;> rfl

/-- Settles O43: the update by its mode and by what it reads; the end of its billing step by step. -/
theorem accountUpdateIsPerformed : Obligations.AccountUpdateIsPerformed := by
  refine ⟨?_, fun r u band => ?_, fun s o => exec_accountUpdate_of_init, fun s src o =>
    ⟨fun h => State.endBilling_of_none h o, fun before b after hin hb hbefore => ?_⟩,
    fun s c n h => State.passMark_of_none n h, fun s c n w before after hs hw h => State.passMark_of_first n hs hw h,
    fun s => rfl, fun s k x h => ?_⟩
  · intro s u rest hwork hrest t a n new ended fetched
    have hexec : exec .accountUpdate s = .next (ended (t.performUpdate u).1 (t.performUpdate u).2) :=
      exec_accountUpdate hwork hrest
    have hnew (r : AccountRecord) : t.updated r u = new r := rfl
    rw [hexec]
    refine ⟨fun hq => ?_, fun hq => ⟨fun l hl ha => ?_, fun hno => ⟨fun hm => ⟨fun w r hr => ?_, fun k hk => ?_⟩,
      fun v hdirty hclean => ?_⟩⟩⟩
    · rw [State.performUpdate_quarantined (s := t) hq]
    · rw [State.performUpdate_held (s := t) hq (State.lineHolding_of_line (s := t) hl ha), hnew]
      refine ⟨fun hm => ?_, fun hm => ?_, fun hm => ?_⟩ <;> rw [show t.windows.mode u.account = _ from hm] <;> rfl
    · rw [State.performUpdate_direct (s := t) hq (State.lineHolding_of_no_line (s := t) hno) hm,
        State.directUpdate_of_fetched (s := t) hr, hnew]
    · rw [State.performUpdate_direct (s := t) hq (State.lineHolding_of_no_line (s := t) hno) hm,
        State.directUpdate_of_uncorrectable (s := t) hk]
    · have hv : (t.writeBack n).1 = v := by
        by_cases hl : ∃ x r, s.tally.lines.get n = some (some ⟨true, x, r⟩)
        · obtain ⟨x, r, hl⟩ := hl
          rw [State.writeBack_dirty (s := t) hl, hdirty x r hl]
        · have hclean' : ∀ l, s.tally.lines.get n = some (some l) → l.dirty = false := by
            rintro ⟨_ | _, x, r⟩ hl'
            · rfl
            · exact absurd ⟨x, r, hl'⟩ hl
          rw [State.writeBack_clean (s := t) hclean', hclean fun x r hl' => hl ⟨x, r, hl'⟩]
      have hnewv (r : AccountRecord) : v.updated r u = new r := by
        rw [← hv, State.updated_writeBack, hnew]
      refine ⟨fun w r hr => ⟨fun hm => ?_, fun hm => ?_⟩, fun k hk hm => ?_⟩
      · rw [State.performUpdate_fill (s := t) hq (State.lineHolding_of_no_line (s := t) hno) (by simp [t, a, hm]),
          State.fillUpdate_of_fetched hv hr, hnewv, show t.windows.mode u.account = _ from hm]
        rfl
      · rw [State.performUpdate_fill (s := t) hq (State.lineHolding_of_no_line (s := t) hno) (by simp [t, a, hm]),
          State.fillUpdate_of_fetched hv hr, hnewv, show t.windows.mode u.account = _ from hm]
        rfl
      · rw [State.performUpdate_fill (s := t) hq (State.lineHolding_of_no_line (s := t) hno) hm,
          State.fillUpdate_of_uncorrectable hv hk]
  · obtain ⟨h0, h1, h2, h3⟩ := r.this.toNat_add band u.delta.toNat
    exact ⟨h0, h1, h2, h3, toNat_satAdd .., toNat_satAdd .., toNat_satAdd .., rfl, rfl, rfl, rfl⟩
  · refine State.endBilling_of_find ?_ o
    rw [hin]
    exact find?_of_first (beq_iff_eq.2 hb) fun x hx => by simpa using hbefore x hx
  · simp only [State.goOn, Table.modify_of_get _ _ h]

end Sys2Proof.Machine
end

section
/-! PROOFS. The check code of tally memory and the layout of a record (10). -/

namespace Sys2Proof.Machine

/-! ### The check is linear -/

/-- A signature counts where exactly one of two bits is 1. -/
theorem ite_xor_zero (p q : Bool) (g : Byte) :
    (if p ^^ q then g else 0) = (if p then g else 0) ^^^ (if q then g else 0) := by
  cases p <;> cases q <;> simp

theorem checkFrom_xor (d e : BitVec 64) (i : Nat) (gs : List Byte) :
    checkFrom (d ^^^ e) i gs = checkFrom d i gs ^^^ checkFrom e i gs := by
  induction gs generalizing i with
  | nil => exact (BitVec.xor_zero ..).symm
  | cons g gs ih =>
    rw [checkFrom, checkFrom, checkFrom, ih, BitVec.getLsbD_xor, ite_xor_zero]
    ac_rfl

theorem checkOf_xor (d e : BitVec 64) : checkOf (d ^^^ e) = checkOf d ^^^ checkOf e := checkFrom_xor ..

/-- R178: a data bit alone has its signature as check. -/
theorem checkOf_bit : ∀ i < 64, checkOf (1#64 <<< i) = dataSignatures.getD i 0 := by decide +kernel

/-- R178: a data bit flipped changes the check by its signature. -/
theorem checkOf_flip (d : BitVec 64) {i : Nat} (hi : i < 64) :
    checkOf (d ^^^ (1#64 <<< i)) = checkOf d ^^^ dataSignatures.getD i 0 := by
  rw [checkOf_xor, checkOf_bit i hi]

theorem foldl_xor (f : Nat → Byte) (x : Byte) (is : List Nat) :
    is.foldl (fun x i => x ^^^ f i) x = x ^^^ is.foldl (fun x i => x ^^^ f i) 0 := by
  induction is generalizing x with
  | nil => simp
  | cons i is ih =>
    rw [List.foldl_cons, List.foldl_cons, ih, ih (0 ^^^ f i)]
    simp [BitVec.xor_assoc]

/-- R178: the check is the exclusive OR of the signatures of the bits that are 1. -/
theorem checkFrom_eq_foldl (d : BitVec 64) (i : Nat) (gs : List Byte) :
    checkFrom d i gs =
      ((List.range gs.length).filter fun k => d.getLsbD (i + k)).foldl (fun x k => x ^^^ gs.getD k 0) 0 := by
  induction gs generalizing i with
  | nil => rfl
  | cons g gs ih =>
    rw [checkFrom, ih, List.length_cons, List.range_succ_eq_map, List.filter_cons, List.filter_map]
    cases d.getLsbD i <;>
      simp [List.foldl_map, Function.comp_def, Nat.add_assoc, Nat.add_comm 1, foldl_xor _ g]

/-- R178: the signatures of the data bits, as numbers. -/
theorem dataSignatures_eq :
    ((List.range 256).filter fun v => ((List.range 8).filter fun j => v.testBit j).length == 3) ++
      [0x1F, 0x2F, 0x37, 0x3B, 0x3D, 0x3E, 0x4F, 0x57] = dataSignatures.map BitVec.toNat := by decide +kernel

theorem ofNat_getD_toNat (gs : List Byte) (i : Nat) :
    BitVec.ofNat 8 ((gs.map BitVec.toNat).getD i 0) = gs.getD i 0 := by
  rw [List.getD_eq_getElem?_getD, List.getD_eq_getElem?_getD, List.getElem?_map]
  cases gs[i]? <;> simp

/-! ### Syndromes -/

theorem judgeSyndrome_zero (d : BitVec 64) : judgeSyndrome d 0 = .good d := rfl

/-- R178: the signature of a data bit stands at its number and is that of no check bit. -/
theorem dataSignature_spec : ∀ i < 64, dataSignatures.getD i 0 ≠ 0 ∧
    checkSignatures.contains (dataSignatures.getD i 0) = false ∧
    dataSignatures.contains (dataSignatures.getD i 0) = true ∧
    dataSignatures.idxOf (dataSignatures.getD i 0) = i := by decide +kernel

theorem checkSignature_spec : ∀ i < 8, 1#8 <<< i ≠ 0 ∧ checkSignatures.contains (1#8 <<< i) = true := by decide

/-- R178: the syndrome of a data bit corrects that bit. -/
theorem judgeSyndrome_data (d : BitVec 64) {i : Nat} (hi : i < 64) :
    judgeSyndrome d (dataSignatures.getD i 0) = .corrected (d ^^^ (1#64 <<< i)) := by
  obtain ⟨hne, hcheck, hdata, hidx⟩ := dataSignature_spec i hi
  rw [judgeSyndrome, if_neg (by simpa using hne), hcheck, if_neg Bool.false_ne_true, if_pos hdata, hidx]

/-- R178: the syndrome of a check bit leaves the data. -/
theorem judgeSyndrome_check (d : BitVec 64) {i : Nat} (hi : i < 8) : judgeSyndrome d (1#8 <<< i) = .corrected d := by
  obtain ⟨hne, hcheck⟩ := checkSignature_spec i hi
  rw [judgeSyndrome, if_neg (by simpa using hne), if_pos hcheck]

theorem mem_dataSignatures {x : Byte} (h : x ∈ dataSignatures) : ∃ i < 64, x = dataSignatures.getD i 0 := by
  obtain ⟨i, hi, rfl⟩ := List.mem_iff_getElem.1 h
  exact ⟨i, hi, by simp [hi]⟩

theorem mem_checkSignatures {x : Byte} (h : x ∈ checkSignatures) : ∃ i < 8, x = 1#8 <<< i :=
  (by decide : ∀ x ∈ checkSignatures, ∃ i < 8, x = 1#8 <<< i) x h

theorem judgeSyndrome_uncorrectable (d : BitVec 64) {x : Byte} (hx : x ≠ 0) (hd : x ∉ dataSignatures)
    (hc : x ∉ checkSignatures) : judgeSyndrome d x = .uncorrectable := by
  rw [judgeSyndrome, if_neg (by simpa using hx), if_neg (by simpa using hc), if_neg (by simpa using hd)]

/-- Whether a byte has an odd number of bits that are 1. -/
def oddWeight (x : Byte) : Bool := (List.range 8).foldl (fun b i => b ^^ x.getLsbD i) false

theorem oddWeight_xor (x y : Byte) : oddWeight (x ^^^ y) = (oddWeight x ^^ oddWeight y) := by
  have key (is : List Nat) (a b : Bool) :
      is.foldl (fun b i => b ^^ (x ^^^ y).getLsbD i) (a ^^ b) =
        (is.foldl (fun b i => b ^^ x.getLsbD i) a ^^ is.foldl (fun b i => b ^^ y.getLsbD i) b) := by
    induction is generalizing a b with
    | nil => rfl
    | cons i is ih =>
      rw [List.foldl_cons, List.foldl_cons, List.foldl_cons, ← ih, BitVec.getLsbD_xor]
      cases a <;> cases b <;> simp
  exact key _ false false

/-- R178: every signature is of odd weight. -/
theorem oddWeight_signatures : (∀ x ∈ dataSignatures, oddWeight x = true) ∧ ∀ x ∈ checkSignatures, oddWeight x = true := by
  decide +kernel

theorem oddWeight_data {i : Nat} (hi : i < 64) : oddWeight (dataSignatures.getD i 0) = true :=
  oddWeight_signatures.1 _ (List.contains_iff_mem.1 (dataSignature_spec i hi).2.2.1)

theorem oddWeight_check {i : Nat} (hi : i < 8) : oddWeight (1#8 <<< i) = true :=
  oddWeight_signatures.2 _ (List.contains_iff_mem.1 (checkSignature_spec i hi).2)

/-- R178: no two positions share a signature. -/
theorem dataSignature_inj {i j : Nat} (hi : i < 64) (hj : j < 64) (hne : i ≠ j) :
    dataSignatures.getD i 0 ≠ dataSignatures.getD j 0 := fun h => by
  have := (dataSignature_spec i hi).2.2.2
  rw [h, (dataSignature_spec j hj).2.2.2] at this
  exact hne this.symm

theorem signature_ne {i j : Nat} (hi : i < 64) (hj : j < 8) : dataSignatures.getD i 0 ≠ 1#8 <<< j := fun h => by
  have := (dataSignature_spec i hi).2.1
  rw [h, (checkSignature_spec j hj).2] at this
  cases this

theorem checkSignature_inj {i j : Nat} (hi : i < 8) (hj : j < 8) (hne : i ≠ j) : 1#8 <<< i ≠ 1#8 <<< j :=
  (by decide : ∀ i < 8, ∀ j < 8, i ≠ j → 1#8 <<< i ≠ 1#8 <<< j) i hi j hj hne

/-- R178: two different signatures together make a syndrome of even weight, which corrects nothing. -/
theorem judgeSyndrome_pair (d : BitVec 64) {x y : Byte} (hx : oddWeight x = true) (hy : oddWeight y = true) (hne : x ≠ y) :
    judgeSyndrome d (x ^^^ y) = .uncorrectable := by
  have heven : oddWeight (x ^^^ y) = false := by rw [oddWeight_xor, hx, hy]; rfl
  refine judgeSyndrome_uncorrectable d (fun h => hne (BitVec.xor_eq_zero_iff.1 h)) (fun h => ?_) fun h => ?_
  · rw [oddWeight_signatures.1 _ h] at heven; cases heven
  · rw [oddWeight_signatures.2 _ h] at heven; cases heven

/-! ### Words -/

/-- R177, R178: a word of these data with a check byte is judged by its syndrome. -/
theorem readWord_eq (d : BitVec 64) (c : Byte) : readWord (be 8 d.toNat ++ [c]) = judgeSyndrome d (~~~c ^^^ checkOf d) := by
  have htake : (be 8 d.toNat ++ [c]).take 8 = be 8 d.toNat := by
    rw [List.take_append_of_le_length (by simp), List.take_of_length_le (by simp)]
  have hlast : (be 8 d.toNat ++ [c]).getD 8 0 = c := by simp
  rw [readWord, htake, hlast, fromBe_be_of_lt (by exact d.isLt), BitVec.ofNat_toNat, BitVec.setWidth_eq]

theorem xor_xor_self (x y : Byte) : x ^^^ y ^^^ x = y := by
  rw [BitVec.xor_comm x y, BitVec.xor_assoc, BitVec.xor_self, BitVec.xor_zero]

theorem not_xor (x y : Byte) : ~~~(~~~x ^^^ y) = x ^^^ y := by
  rw [← BitVec.not_xor_left, BitVec.not_not]

/-- R178: a stored word whose check byte is changed by `x` has syndrome `x`. -/
theorem readWord_check (d : BitVec 64) (x : Byte) :
    readWord (be 8 d.toNat ++ [~~~(checkOf d ^^^ x)]) = judgeSyndrome d x := by
  rw [readWord_eq, BitVec.not_not, xor_xor_self]

/-- R178: a stored word whose data are changed by `e` has the check of `e` as syndrome. -/
theorem readWord_data (d e : BitVec 64) (x : Byte) :
    readWord (be 8 (d ^^^ e).toNat ++ [~~~checkOf d ^^^ x]) = judgeSyndrome (d ^^^ e) (checkOf e ^^^ x) := by
  rw [readWord_eq, not_xor, checkOf_xor]
  congr 1
  rw [BitVec.xor_assoc, ← BitVec.xor_assoc x, BitVec.xor_comm x, BitVec.xor_assoc (checkOf d), ← BitVec.xor_assoc (checkOf d),
    BitVec.xor_self, BitVec.zero_xor, BitVec.xor_comm]

theorem readWord_stored (d : BitVec 64) : readWord (storedWord d) = .good d := by
  have h := readWord_check d 0#8
  rwa [BitVec.xor_zero] at h

/-! ### Records -/

/-- 10, section 10.2: a record is spelled by its words. -/
theorem recordOf_words (r : AccountRecord) :
    recordOf (r.this.b0 ++ r.this.b1) (r.this.b2 ++ r.this.b3) (r.last.b0 ++ r.last.b1) (r.last.b2 ++ r.last.b3)
      (r.thisFuel ++ r.lastFuel) (r.festival ++ r.period ++ r.tag ++ r.straddles) = r := by
  have hhigh (x y : Word32) : (x ++ y).extractLsb' 32 32 = x := BitVec.extractLsb'_append_eq_left
  have hlow (x y : Word32) : (x ++ y).extractLsb' 0 32 = y := by
    rw [BitVec.extractLsb'_append_eq_of_add_le (by decide), BitVec.extractLsb'_eq_self]
  have hfestival : (r.festival ++ r.period ++ r.tag ++ r.straddles).extractLsb' 24 40 = r.festival := by
    rw [BitVec.extractLsb'_append_eq_of_le (by decide), BitVec.extractLsb'_append_eq_of_le (by decide),
      BitVec.extractLsb'_append_eq_left]
  have hperiod : (r.festival ++ r.period ++ r.tag ++ r.straddles).extractLsb' 16 8 = r.period := by
    rw [BitVec.extractLsb'_append_eq_of_le (by decide), BitVec.extractLsb'_append_eq_of_le (by decide),
      BitVec.extractLsb'_append_eq_of_add_le (by decide), BitVec.extractLsb'_eq_self]
  have htag : (r.festival ++ r.period ++ r.tag ++ r.straddles).extractLsb' 14 2 = r.tag := by
    rw [BitVec.extractLsb'_append_eq_of_le (by decide), BitVec.extractLsb'_append_eq_of_add_le (by decide),
      BitVec.extractLsb'_eq_self]
  have hstraddles : (r.festival ++ r.period ++ r.tag ++ r.straddles).extractLsb' 0 14 = r.straddles := by
    rw [BitVec.extractLsb'_append_eq_of_add_le (by decide), BitVec.extractLsb'_eq_self]
  simp only [recordOf, hhigh, hlow, hfestival, hperiod, htag, hstraddles]

theorem length_storedWord (d : BitVec 64) : (storedWord d).length = 9 := by simp [storedWord]

/-- R177: word `k` of stored words is read back. -/
theorem wordAt_storedWords (ds : List (BitVec 64)) {k : Nat} (hk : k < ds.length) :
    wordAt (ds.flatMap storedWord) k = .good ds[k] := by
  induction ds generalizing k with
  | nil => simp at hk
  | cons d ds ih =>
    cases k with
    | zero =>
      rw [wordAt, List.flatMap_cons, Nat.mul_zero, List.drop_zero,
        List.take_append_of_le_length (by rw [length_storedWord]),
        List.take_of_length_le (by rw [length_storedWord]), readWord_stored]
      rfl
    | succ k =>
      have hdrop : (storedWord d ++ ds.flatMap storedWord).drop (9 * (k + 1)) = (ds.flatMap storedWord).drop (9 * k) := by
        rw [Nat.mul_succ, Nat.add_comm, ← List.drop_drop, ← length_storedWord d, List.drop_left]
      rw [wordAt, List.flatMap_cons, hdrop, ← wordAt, ih (by simpa using hk)]
      rfl

/-- R177, R179: a record's own bytes are read as that record. -/
theorem readRecordBytes_bytes (r : AccountRecord) : readRecordBytes r.bytes = .good r := by
  have hwords : ∀ k < 6, wordAt r.bytes k = .good (r.words.getD k 0) := fun k hk => by
    rw [AccountRecord.bytes, wordAt_storedWords r.words hk, List.getD_eq_getElem _ _ hk]
  rw [readRecordBytes_eq, judgeWords_of_good hwords]
  exact congrArg _ (recordOf_words r)

theorem recordAddress_eq (a : Nat) : recordAddress a = 54 * a := Nat.mul_comm ..

theorem State.writeRecord_of_answers {s : State} {a : Nat} (h : s.bankAnswers a = true) (r : AccountRecord) :
    s.writeRecord a r = { s with tallyMem := Memory.writeBytes s.tallyMem (54 * a) r.bytes } := by
  rw [writeRecord, if_pos h, recordAddress_eq]

theorem State.writeRecord_of_silent {s : State} {a : Nat} (h : s.bankAnswers a = false) (r : AccountRecord) :
    s.writeRecord a r = s := by
  rw [writeRecord, h, if_neg Bool.false_ne_true]

theorem State.readRecord_eq (s : State) (a : Nat) :
    s.readRecord a =
      if s.bankAnswers a then readRecordBytes (Memory.readBytes s.tallyMem (54 * a) 54)
      else readRecordBytes (List.replicate 54 0) := by
  rw [readRecord, recordAddress_eq]
  split <;> rfl

/-- R176: which memory answers for an account, as the statements write it. -/
theorem State.bankAnswers_eq (s : State) (a : Nat) :
    s.bankAnswers a = if a < 512 then s.tally.bank0 && s.bank0Fitted else s.tally.bank1 && s.bank1Fitted := by
  rw [bankAnswers, bankPresent]
  split <;> rfl

/-- Bytes read depend on nothing outside them. -/
theorem Memory.readBytes_congr {m m' : Memory} {a n : Nat} (h : ∀ x, a ≤ x → x < a + n → m.read x = m'.read x) :
    m.readBytes a n = m'.readBytes a n := by
  refine List.ext_getElem? fun k => ?_
  rw [Memory.getElem?_readBytes, Memory.getElem?_readBytes]
  split
  · rw [h _ (by omega) (by omega)]
  · rfl

theorem State.bankAnswers_writeRecord (s : State) (a b : Nat) (r : AccountRecord) :
    (s.writeRecord a r).bankAnswers b = s.bankAnswers b := by
  obtain ⟨m, hm⟩ := Sound.writeRecord_eq s a r
  rw [hm]
  rfl

theorem State.readRecord_writeRecord_same {s : State} {a : Nat} (r : AccountRecord) (hwf : s.tallyMem.wf = true)
    (h : s.bankAnswers a = true) : (s.writeRecord a r).readRecord a = .good r := by
  have hread : Memory.readBytes (Memory.writeBytes s.tallyMem (54 * a) r.bytes) (54 * a) 54 = r.bytes := by
    have := Memory.readBytes_writeBytes hwf (54 * a) r.bytes
    rwa [r.length_bytes] at this
  have hmem : (s.writeRecord a r).tallyMem = Memory.writeBytes s.tallyMem (54 * a) r.bytes := by
    rw [writeRecord_of_answers h]
  rw [readRecord_eq, bankAnswers_writeRecord, if_pos h, hmem, hread, readRecordBytes_bytes]

theorem State.readRecord_writeRecord_ne (s : State) {a b : Nat} (r : AccountRecord) (hne : b ≠ a) :
    (s.writeRecord a r).readRecord b = s.readRecord b := by
  rw [readRecord_eq, readRecord_eq, bankAnswers_writeRecord,
    Memory.readBytes_congr fun x _ _ => s.read_writeRecord_outside a r x (by omega)]

/-- Settles O42: the syndrome of each change of a word, and what a record written leaves in memory. -/
theorem checkCodeCorrectsOneBit : Obligations.CheckCodeCorrectsOneBit := by
  refine ⟨?_, fun r => rfl, ?_, readWord_stored, fun d i hi => ?_, fun d i hi => ?_, fun d i j hij hj => ?_,
    fun d i j hi hj => ?_, fun d i j hij hj => ?_, by decide +kernel, fun r => ⟨r.length_bytes, readRecordBytes_bytes r⟩,
    fun s a r hwf h => ⟨s.readRecord_writeRecord_same r hwf ?_, fun b hb => s.readRecord_writeRecord_ne r hb,
      fun x hx => s.read_writeRecord_outside a r x hx⟩⟩
  · intro d signatures signature
    have hsignatures : signatures = dataSignatures.map BitVec.toNat := dataSignatures_eq
    have hsignature (i : Nat) : signature i = dataSignatures.getD i 0 := by
      simp only [signature, hsignatures, ofNat_getD_toNat]
    refine ⟨by rw [hsignatures]; rfl, ?_, fun x => ?_⟩
    · simp only [hsignature]
      refine (checkFrom_eq_foldl d 0 dataSignatures).trans ?_
      simp only [Nat.zero_add]
      rfl
    · intro read
      have hread : read = judgeSyndrome d x := readWord_check d x
      simp only [hread, hsignature]
      refine ⟨fun h => by rw [h, judgeSyndrome_zero], fun i hi h => by rw [h, judgeSyndrome_data d hi],
        fun i hi h => by rw [h, judgeSyndrome_check d hi], fun h0 hd hc => ?_⟩
      refine judgeSyndrome_uncorrectable d h0 (fun h => ?_) fun h => ?_
      · obtain ⟨i, hi, h⟩ := mem_dataSignatures h
        exact hd i hi h
      · obtain ⟨i, hi, h⟩ := mem_checkSignatures h
        exact hc i hi h
  · intro s a r answers
    have hanswers : s.bankAnswers a = answers := s.bankAnswers_eq a
    rw [← hanswers]
    refine ⟨fun h => ⟨State.writeRecord_of_answers h r, ?_⟩, fun h => ⟨State.writeRecord_of_silent h r, ?_⟩⟩
    · rw [State.readRecord_eq, if_pos h]
    · rw [State.readRecord_eq, h, if_neg Bool.false_ne_true]
  · have h := readWord_data d (1#64 <<< i) 0#8
    rwa [BitVec.xor_zero, BitVec.xor_zero, checkOf_bit i hi, judgeSyndrome_data _ hi, BitVec.xor_assoc, BitVec.xor_self,
      BitVec.xor_zero] at h
  · rw [readWord_eq, not_xor, xor_xor_self, judgeSyndrome_check d hi]
  · have h := readWord_data d (1#64 <<< i ^^^ 1#64 <<< j) 0#8
    rwa [BitVec.xor_zero, BitVec.xor_zero, checkOf_flip _ hj, checkOf_bit i (by omega), ← BitVec.xor_assoc,
      judgeSyndrome_pair _ (oddWeight_data (by omega)) (oddWeight_data hj)
        (dataSignature_inj (by omega) hj hij.ne)] at h
  · have h := readWord_data d (1#64 <<< i) (1#8 <<< j)
    rwa [checkOf_bit i hi, judgeSyndrome_pair _ (oddWeight_data hi) (oddWeight_check hj) (signature_ne hi hj)] at h
  · rw [BitVec.xor_assoc, readWord_eq, not_xor, xor_xor_self,
      judgeSyndrome_pair _ (oddWeight_check (by omega)) (oddWeight_check hj) (checkSignature_inj (by omega) hj hij.ne)]
  · rw [State.bankAnswers_eq]
    exact h

end Sys2Proof.Machine
end

section
/-! PROOFS. Circuits and the circuit map (08): INSTALL MAP and CLEAR MAP, the reads, and the billing of a circuit. -/

namespace Sys2Proof.Machine

/-! ### Where INSTALL MAP places an entry -/

theorem BillingEngine.placeFor_of_entry {b : BillingEngine} {c n : Nat} (h : b.entryOf c = some n) :
    b.placeFor c = some ⟨n, b.pointer, none⟩ := by
  rw [placeFor, h]

theorem BillingEngine.placeFor_of_free {b : BillingEngine} {c n : Nat} (h : b.entryOf c = none)
    (hn : b.map.get n = some none) (hlow : ∀ j < n, ∃ y, b.map.get j = some (some y)) :
    b.placeFor c = some ⟨n, b.pointer, none⟩ := by
  have hfree : b.map.find (fun e => e.isNone) = some n := by
    rw [Table.find_eq_some]
    refine ⟨⟨none, hn, rfl⟩, fun j hj x hx => ?_⟩
    obtain ⟨y, hy⟩ := hlow j hj
    rw [hy] at hx
    cases hx
    rfl
  rw [placeFor, h, hfree]

/-- R154, step 3: where no entry is free, the replaceable one is taken, if any. -/
theorem BillingEngine.placeFor_of_full {b : BillingEngine} {c : Nat} (h : b.entryOf c = none)
    (hfull : ∀ j < 32, ∃ y, b.map.get j = some (some y)) :
    b.placeFor c = b.replaceable.map fun e => ⟨e, nextEntry e, (b.map.used e).map fun x => x.circuit⟩ := by
  have hfree : b.map.find (fun e => e.isNone) = none := by
    rw [Table.find_eq_none]
    intro j x hx
    obtain ⟨y, hy⟩ := hfull j (b.map.lt_of_get hx)
    rw [hy] at hx
    cases hx
    rfl
  rw [placeFor, h, hfree]

theorem BillingEngine.used_of_get {b : BillingEngine} {n : Nat} {x : MapEntry} (h : b.map.get n = some (some x)) :
    b.map.used n = some x := Option.join_eq_some_iff.2 h

/-- R154, step 3: the first unpinned entry from the pointer on. -/
theorem BillingEngine.replaceable_of_first {b : BillingEngine} {k : Nat} {x : MapEntry} (hk : k < 32)
    (hx : b.map.get ((b.pointer + k) % 32) = some (some x)) (hp : x.pinned = false)
    (hfull : ∀ j < 32, ∃ y, b.map.get j = some (some y))
    (hlow : ∀ j < k, ∀ y, b.map.get ((b.pointer + j) % 32) = some (some y) → y.pinned = true) :
    b.replaceable = some ((b.pointer + k) % 32) := by
  rw [replaceable, List.find?_map, Option.map_eq_some_iff]
  refine ⟨k, List.find?_range_eq_some.2 ⟨by simp [used_of_get hx, hp], List.mem_range.2 hk, fun j hj => ?_⟩, rfl⟩
  obtain ⟨y, hy⟩ := hfull ((b.pointer + j) % 32) (Nat.mod_lt _ (by decide))
  simp [used_of_get hy, hlow j hj y hy]

theorem BillingEngine.replaceable_none {b : BillingEngine} (h : ∀ j y, b.map.get j = some (some y) → y.pinned = true) :
    b.replaceable = none := by
  rw [replaceable, List.find?_eq_none]
  intro e _
  cases he : b.map.used e with
  | none => simp
  | some y => simp [h e y (Option.join_eq_some_iff.1 he)]

theorem exec_installMap_offered {s : State} {tag : Byte} {c a levy pinned : Nat} (hc : c < 256) (ha : a < 65536)
    (hl : levy < 256) (hp : pinned < 256)
    (h : Offered s .office 0x40 tag (be 1 c ++ be 2 a ++ be 1 levy ++ be 1 pinned)) :
    exec (.installMap .office) s =
      .next (deliver .office (ownInstallMap [c, a, levy, pinned] (s.judged .office))).transmit :=
  exec_of_fields (row := .installMap) rfl h rfl [(1, c), (2, a), (1, levy), (1, pinned)] rfl (by simp [hc, ha, hl, hp])
    (by simp [encodeFields])

/-! ### CLEAR MAP -/

/-- R155: a CLEAR MAP is judged by the command of its form, and one of no form by any (log entry 7). -/
theorem serveWhere_clearMap {s : State} {tag : Byte} {form c : Nat} (k : Nat) (hform : form < 256) (hc : c < 256)
    (hk : form = k ∨ 2 < form) (h : Offered s .office 0x41 tag (be 1 form ++ be 1 c))
    (owner : List Nat → State → Answered) :
    serveWhere (takesClearMap k) .office .clearMap owner s = deliver .office (owner [form, c] (s.judged .office)) := by
  have htakes : takesClearMap k ⟨0x41, tag, be 1 form ++ be 1 c⟩ = true := by
    have : (BitVec.ofNat 8 form).toNat = form := by rw [BitVec.toNat_ofNat]; omega
    simp [takesClearMap, be, this, RequestRow.clearMap, hk]
  have hparse : RequestRow.clearMap.layout.parse (be 1 form ++ be 1 c) = .ok [form, c] := by
    simpa [encodeFields, RequestRow.clearMap] using
      parse_encodeFields (xs := [(1, form), (1, c)]) (by simp [hform, hc])
  rw [serveWhere_of_request h.request htakes, h.ready, judge_ready rfl, hparse]

theorem BillingEngine.countEntries_eq (b : BillingEngine) (p : MapEntry → Bool) :
    b.countEntries p = (b.map.cells.filter fun e => e.any p).length := by
  rw [countEntries, List.countP_eq_length_filter]
  congr 2
  funext e
  cases e <;> rfl

theorem takesClearMap_range {form : Nat} (h : 2 < form) (c : Nat) (s : State) :
    ownClearMapAll [form, c] s = (s, some (refuse .range 1)) ∧
      ownClearMapUnpinned [form, c] s = (s, some (refuse .range 1)) ∧
      ownClearMapCircuit [form, c] s = (s, some (refuse .range 1)) := by
  simp [ownClearMapAll, ownClearMapUnpinned, ownClearMapCircuit, wholeMapChecks, unlessRefused_cons, arg, h]

/-- Settles O39: INSTALL MAP by where the entry is placed, CLEAR MAP form by form. -/
theorem mapEntriesArePlacedAndFreed : Obligations.MapEntriesArePlacedAndFreed := by
  refine ⟨?_, ?_⟩
  · intro s tag c a levy pinned hc ha hl hp h t entry placed
    refine (firstDecides_of (fun x => exec (.installMap .office) s = .next (deliver .office x).transmit)
      (exec_installMap_offered hc ha hl hp h)).imp (fun _ => id) fun hacc => ⟨fun n x hx hxc hlow => ?_, fun hmiss =>
        ⟨fun n hn hlow => ?_, fun hfull => ⟨?_, fun hpinned => ?_⟩⟩⟩
    · have hplace := BillingEngine.placeFor_of_entry ((s.billing.entryOf_eq_some c n).2 ⟨⟨x, hx, hxc⟩, hlow⟩)
      rw [hacc]
      simp only [State.judged_billing, arg, Nat.sub_self, List.getD_cons_zero, hplace]
      rfl
    · have hplace := BillingEngine.placeFor_of_free ((s.billing.entryOf_eq_none c).2 hmiss) hn hlow
      rw [hacc]
      simp only [State.judged_billing, arg, Nat.sub_self, List.getD_cons_zero, hplace]
      rfl
    · intro k x hk hx hxp hlow n
      have hplace := BillingEngine.placeFor_of_full ((s.billing.entryOf_eq_none c).2 hmiss) hfull
      rw [BillingEngine.replaceable_of_first hk hx hxp hfull hlow, Option.map_some, BillingEngine.used_of_get hx] at hplace
      rw [hacc]
      simp only [State.judged_billing, arg, Nat.sub_self, List.getD_cons_zero, hplace]
      rfl
    · have hplace := BillingEngine.placeFor_of_full ((s.billing.entryOf_eq_none c).2 hmiss) hfull
      rw [BillingEngine.replaceable_none hpinned, Option.map_none] at hplace
      rw [hacc]
      simp only [State.judged_billing, arg, Nat.sub_self, List.getD_cons_zero, hplace]
      rfl
  · intro s tag form c hform hc h t freed cleared
    have hall (hk : form = 0 ∨ 2 < form) : exec (.clearMapAll .office) s =
        .next (deliver .office (ownClearMapAll [form, c] t)).transmit :=
      congrArg (fun u : State => (.next u.transmit : Result)) (serveWhere_clearMap 0 hform hc hk h _)
    have hunpinned (hk : form = 1 ∨ 2 < form) : exec (.clearMapUnpinned .office) s =
        .next (deliver .office (ownClearMapUnpinned [form, c] t)).transmit :=
      congrArg (fun u : State => (.next u.transmit : Result)) (serveWhere_clearMap 1 hform hc hk h _)
    have hcircuit (hk : form = 2 ∨ 2 < form) : exec (.clearMapCircuit .office) s =
        .next (deliver .office (ownClearMapCircuit [form, c] t)).transmit :=
      congrArg (fun u : State => (.next u.transmit : Result)) (serveWhere_clearMap 2 hform hc hk h _)
    have hbilling : t.billing = s.billing := s.judged_billing .office
    refine ⟨fun hlate => ?_, ?_, ?_, ?_⟩
    · obtain ⟨ha, hu, hci⟩ := takesClearMap_range hlate c t
      rw [hall (.inr hlate), hunpinned (.inr hlate), hcircuit (.inr hlate), ha, hu, hci]
      exact ⟨rfl, rfl, rfl⟩
    · rintro rfl
      rw [hall (.inl rfl)]
      refine ⟨fun hne => ?_, ?_⟩
      · simp [ownClearMapAll, wholeMapChecks, unlessRefused_cons, arg, hne, deliver_some, State.replied, refuse]
      · rintro rfl
        simp only [ownClearMapAll, hbilling, BillingEngine.countEntries_eq]
        rfl
    · rintro rfl
      rw [hunpinned (.inl rfl)]
      refine ⟨fun hne => ?_, ?_⟩
      · simp [ownClearMapUnpinned, wholeMapChecks, unlessRefused_cons, arg, hne, deliver_some, State.replied, refuse]
      · rintro rfl
        simp only [ownClearMapUnpinned, freeWhere, hbilling, BillingEngine.countEntries_eq]
        rfl
    · rintro rfl
      rw [hcircuit (.inl rfl)]
      refine ⟨fun hlate => ?_, fun hin hmiss => ?_, fun hin ⟨j, y, hy, hyc⟩ => ?_⟩
      · simp [ownClearMapCircuit, unlessRefused_cons, arg, hlate, deliver_some, State.replied, refuse]
      · simp [ownClearMapCircuit, unlessRefused_cons, arg, Nat.not_lt.2 hin, hbilling,
          (s.billing.entryOf_eq_none c).2 hmiss, deliver_some, State.replied, refuse]
      · have hhit : (s.billing.entryOf c).isNone = false := by
          rw [Option.isNone_eq_false_iff, Option.isSome_iff_ne_none, Ne, BillingEngine.entryOf_eq_none]
          exact fun hmiss => hmiss j y hy hyc
        simp only [ownClearMapCircuit, unlessRefused_cons, unlessRefused_nil, arg, List.getD_cons_zero,
          List.getD_cons_succ, decide_eq_true_eq, if_neg (Nat.not_lt.2 hin), hbilling, hhit, freeWhere,
          BillingEngine.countEntries_eq]
        rfl

/-! ### The reads -/

/-- Entries from `a` on, read by their numbers. -/
theorem Table.flatMap_take_drop {n : Nat} {α β : Type} (t : Table n α) (a k : Nat) (f : α → List β) :
    ((t.cells.drop a).take k).flatMap f =
      (List.range (min k (n - a))).flatMap fun j => (t.get (a + j)).elim [] f := by
  have hsome : ((t.cells.drop a).take k).map some = (List.range (min k (n - a))).map fun j => t.get (a + j) := by
    refine List.ext_getElem? fun j => ?_
    have hlen := t.size_eq
    simp only [List.getElem?_map, List.getElem?_take, List.getElem?_drop, Table.get]
    by_cases hj : j < min k (n - a)
    · rw [if_pos (by omega), List.getElem?_range hj, List.getElem?_eq_getElem (by omega)]
      simp
    · rw [List.getElem?_eq_none (l := List.range _) (by rw [List.length_range]; omega)]
      split
      · rw [List.getElem?_eq_none (by omega)]
        rfl
      · rfl
  calc ((t.cells.drop a).take k).flatMap f
      = (((t.cells.drop a).take k).map some).flatMap fun o => o.elim [] f := by
        rw [List.flatMap_map]
        rfl
    _ = _ := by rw [hsome, List.flatMap_map]

/-- R157: what a READ CIRCUIT tells of the circuit's map entry. -/
theorem State.circuitData_eq (s : State) (c : Nat) (r : Circuit) :
    s.circuitData c r =
      be 1 c ++ be 1 (c / 8) ++ be 1 r.stage ++ be 1 (flag (s.line.station .meter (c / 8)).isSome) ++ be 1 r.state.value ++
        be 1 r.state.causeValue ++
        be 1 (flag r.straddled + 2 * flag r.implausible + 4 * flag (s.billing.inFlight.any fun b => b.circuit == c) +
          8 * flag (s.billing.entryOf c).isSome) ++
        be 4 r.base.toNat ++ be 4 r.last.toNat ++ be 1 r.stamp.day ++ be 3 r.stamp.second ++
        be 4 r.cursor.toNat ++ be 4 (r.last - r.cursor).toNat ++ be 8 r.credited.toNat ++ be 8 r.rejected.toNat ++
        be 2 (((s.billing.entryOf c).bind s.billing.map.used).elim 0 fun x => x.account) ++
        be 1 ((s.billing.entryOf c).getD 255) := by
  have hbits (a b x y : Bool) : flagBits [a, b, x, y] = flag a + 2 * flag b + 4 * flag x + 8 * flag y := by
    simp only [flagBits]
    omega
  simp only [circuitData, hbits, Stamp.bytes, List.append_assoc]
  rfl

/-- Settles O40: each read by what it tells. -/
theorem mapAndCircuitsAreRead : Obligations.MapAndCircuitsAreRead := by
  refine ⟨fun s tag h => ?_, ?_, ?_⟩
  · rw [exec_of_empty (row := .readMiss) (owner := ownReadMiss) rfl h rfl rfl]
    have hmiss : missBytes s.billing.miss = match s.billing.miss with
        | some l =>
          be 1 1 ++ be 1 l.circuit ++ be 1 l.stage ++ be 4 l.delta.toNat ++ be 1 l.stamp.day ++ be 3 l.stamp.second ++
            be 1 (flag l.more)
        | none => List.replicate 12 0 := by
      cases s.billing.miss with
      | none => rfl
      | some l => simp only [missBytes, Stamp.bytes, List.append_assoc]
    simp only [ownReadMiss, deliver_done, State.judged_billing, hmiss, BillingEngine.heldForMiss,
      List.countP_eq_length_filter]
    rfl
  · intro s p tag first hfirst h t
    rw [exec_of_fields (row := .readMap) (owner := ownReadMap) rfl h (by cases p <;> rfl) [(1, first)] rfl
      (by simpa using hfirst) (by simp [encodeFields])]
    refine ⟨fun hlate => ?_, fun hin => ?_⟩
    · simp [ownReadMap, unlessRefused_cons, arg, hlate, deliver_some, State.replied, refuse, t]
    · have hused : s.billing.countEntries (fun _ => true) = (s.billing.map.cells.filter fun e => e.isSome).length := by
        rw [BillingEngine.countEntries_eq]
        congr 2
      have hentries : ((s.billing.map.cells.drop first).take 16).flatMap entryBytes =
          (List.range (min 16 (32 - first))).flatMap fun j =>
            match s.billing.map.get (first + j) with
            | some (some e) => be 1 e.circuit ++ be 2 e.account ++ be 1 (flag e.levy + 2 * flag e.pinned)
            | _ => be 1 255 ++ be 2 0 ++ be 1 0 := by
        rw [Table.flatMap_take_drop]
        refine List.flatMap_congr fun j hj => ?_
        have hlt : first + j < 32 := by
          have := List.mem_range.1 hj
          omega
        cases hg : s.billing.map.get (first + j) with
        | none =>
          have := s.billing.map.get_isSome (first + j)
          simp [hg, hlt] at this
        | some e => cases e <;> simp [entryBytes, flagBits]
      simp only [ownReadMap, unlessRefused_cons, unlessRefused_nil, List.map_cons, List.map_nil, arg, Nat.sub_self,
        List.getD_cons_zero, decide_eq_true_eq, if_neg (Nat.not_lt.2 hin), deliver_done, State.judged_billing, hused, hentries]
      rfl
  · intro s p tag c hc h t
    rw [exec_of_fields (row := .readCircuit) (owner := ownReadCircuit) rfl h (by cases p <;> rfl) [(1, c)] rfl
      (by simpa using hc) (by simp [encodeFields])]
    refine ⟨fun hlate => ?_, fun r hr => ?_⟩
    · have hnone : t.circuit c = none := by
        rw [State.circuit, State.judged_billing, Table.get_eq_none _ (by omega)]
      simp only [ownReadCircuit, List.map_cons, List.map_nil, arg, Nat.sub_self, List.getD_cons_zero]
      rw [show (s.judged p).circuit c = none from hnone]
      rfl
    · have hr' : t.circuit c = some r := by
        rw [State.circuit, State.judged_billing]
        exact hr
      have hdata : t.circuitData c r = s.circuitData c r := by
        simp only [State.circuitData, State.isInFlight, t, State.judged_billing, State.judged_line]
      refine ⟨flag (s.billing.entryOf c).isSome,
        ((s.billing.entryOf c).bind s.billing.map.used).elim 0 fun x => x.account, (s.billing.entryOf c).getD 255, ?_,
        fun hmiss => ?_, fun n x hx hxc hlow => ?_⟩
      · simp only [ownReadCircuit, List.map_cons, List.map_nil, arg, Nat.sub_self, List.getD_cons_zero]
        rw [show (s.judged p).circuit c = some r from hr']
        simp only [deliver_done]
        rw [show (s.judged p).circuitData c r = _ from hdata, State.circuitData_eq]
        rcases r.state with _ | _ | _ | _ | _ | _ <;> rfl
      · rw [(s.billing.entryOf_eq_none c).2 hmiss]
        exact ⟨rfl, rfl, rfl⟩
      · rw [(s.billing.entryOf_eq_some c n).2 ⟨⟨x, hx, hxc⟩, hlow⟩, Option.bind_some, BillingEngine.used_of_get hx]
        exact ⟨rfl, rfl, rfl⟩

/-! ### The billing of a circuit -/

theorem State.changeCircuit_of_circuit {s : State} {c : Nat} {r : Circuit} (h : s.circuit c = some r)
    (f : Circuit → Circuit) :
    s.changeCircuit c f = { s with billing := { s.billing with circuits := s.billing.circuits.set c (f r) } } := by
  rw [changeCircuit, Table.modify_of_get _ _ h]

/-- R146: a circuit that has been read and has something unbilled. -/
theorem Circuit.has_unbilled {r : Circuit} (hread : r.state ≠ .unread) (hne : r.unbilled ≠ 0) :
    (r.state == .unread || r.unbilled == 0) = false := by
  rw [Bool.or_eq_false_iff]
  exact ⟨beq_eq_false_iff_ne.2 hread, beq_eq_false_iff_ne.2 hne⟩

theorem State.runBilling_of_nothing {s : State} {src : Source} {c : Nat} {r : Circuit} (h : s.circuit c = some r)
    (hnone : r.state = .unread ∨ r.unbilled = 0) : s.runBilling src c = (s, false) := by
  have : (r.state == .unread || r.unbilled == 0) = true := by simpa using hnone
  simp only [runBilling, h, this, if_true]

/-- R147: an implausible delta. -/
theorem State.runBilling_of_implausible {s : State} {src : Source} {c : Nat} {r : Circuit} (h : s.circuit c = some r)
    (hread : r.state ≠ .unread) (hlimit : s.clock.limit < r.unbilled.toNat) :
    s.runBilling src c = (s.reject c r r.unbilled, false) := by
  have hne : r.unbilled ≠ 0 := by
    intro h0
    rw [h0] at hlimit
    exact Nat.not_lt_zero _ hlimit
  have := Circuit.has_unbilled hread hne
  simp only [runBilling, h, this, Bool.false_eq_true, if_false, if_pos hlimit]

/-- R148: a plausible delta is billed to the account of the circuit's map entry. -/
theorem State.runBilling_of_miss {s : State} {src : Source} {c : Nat} {r : Circuit} (h : s.circuit c = some r)
    (hread : r.state ≠ .unread) (hne : r.unbilled ≠ 0) (hlimit : r.unbilled.toNat ≤ s.clock.limit)
    (hmiss : s.billing.entryOf c = none) : s.runBilling src c = ((s.hold c .miss).latchMiss c r r.unbilled, false) := by
  have := Circuit.has_unbilled hread hne
  simp only [runBilling, h, this, Bool.false_eq_true, if_false, if_neg (Nat.not_lt.2 hlimit), hmiss]

theorem State.runBilling_of_hit {s : State} {src : Source} {c n : Nat} {r : Circuit} {e : MapEntry}
    (h : s.circuit c = some r) (hread : r.state ≠ .unread) (hne : r.unbilled ≠ 0)
    (hlimit : r.unbilled.toNat ≤ s.clock.limit) (hn : s.billing.entryOf c = some n)
    (he : s.billing.map.get n = some (some e)) :
    s.runBilling src c =
      if (s.hitEntry n).quarantined e.account then ((s.hitEntry n).hold c .quarantine, false)
      else if ((s.hitEntry n).windows.denies .engine e.account).isSome then ((s.hitEntry n).hold c .denied, false)
      else ((s.hitEntry n).sendUpdate src c r e r.unbilled, true) := by
  have := Circuit.has_unbilled hread hne
  simp only [runBilling, h, this, Bool.false_eq_true, if_false, if_neg (Nat.not_lt.2 hlimit), hn,
    BillingEngine.used_of_get he]

/-- R148: a hit moves the pointer where it stands at the entry. -/
theorem State.hitEntry_eq (s : State) (n : Nat) :
    s.hitEntry n =
      { s with
        billing := { s.billing with
          pointer := if n = s.billing.pointer then (n + 1) % 32 else s.billing.pointer } } := by
  unfold hitEntry
  by_cases h : n = s.billing.pointer
  · subst h
    simp [nextEntry]
  · simp [h]

/-- R149: a circuit of a known record is held. -/
theorem State.hold_of_circuit {s : State} {c : Nat} {r : Circuit} (h : s.circuit c = some r) (cause : HoldCause) :
    s.hold c cause =
      { s with billing := { s.billing with circuits := s.billing.circuits.set c { r with state := .held cause } } } :=
  changeCircuit_of_circuit h _

/-- R161: the rate of a billing, as the statements write it. -/
theorem State.billingRate_sweep (s : State) (r : Circuit) :
    s.billingRate .sweep r =
      match (s.stage r.stage).bind Stage.activeSet with
      | some i => s.rateInUse i
      | none => 0 := by
  rw [billingRate]
  cases (s.stage r.stage).bind Stage.activeSet <;> rfl

theorem State.billingRate_stream (s : State) (k : Nat) (r : Circuit) :
    s.billingRate (.stream k) r =
      match s.billing.streams.get k with
      | some ⟨q :: _, _⟩ => q.rate
      | _ => 0 := by
  rw [billingRate]
  rcases s.billing.streams.get k with _ | ⟨_ | ⟨q, qs⟩, n⟩ <;> rfl

/-- R143, R144: what a METER report makes of a circuit. -/
theorem State.circuit_applyMeterReport (s : State) (m c : Nat) (counters : List Word32) :
    (s.applyMeterReport m counters).circuit c =
      (s.circuit c).map fun r => if onStation m c then (counters[c % 8]?).elim r fun x => r.read x s.now else r := by
  refine (Table.get_mapIdx ..).trans ?_
  rw [circuit]
  congr 1
  funext r
  cases counters[c % 8]? <;> rfl

/-- R145: what an enrolment or a removal makes of a circuit. -/
theorem State.circuit_unreadStation (s : State) (m c : Nat) (stage : Option Nat) :
    (s.unreadStation m stage).circuit c =
      (s.circuit c).map fun r => if onStation m c then { Circuit.reset with stage := stage.getD r.stage } else r :=
  Table.get_mapIdx ..

/-- R151: what a straddling makes of a circuit. -/
theorem State.circuit_straddle (s : State) (m c : Nat) :
    (s.straddle m).circuit c =
      (s.circuit c).map fun r => if onStation m c && r.state != .unread then { r with straddled := true } else r :=
  Table.get_mapIdx ..

/-- Settles O41: a billing by what it finds; the circuits of a station and of no other change. -/
theorem circuitsAreBilled : Obligations.CircuitsAreBilled := by
  refine ⟨fun b c => ⟨b.entryOf_eq_some c, b.entryOf_eq_none c⟩, ⟨?_, ?_⟩, fun s m c counters r x h hm hx => ?_,
    fun s m c stage r h hm => ?_, fun s m c r h hm => ?_, fun s m c counters stage hm => ?_, fun s m stage => ?_⟩
  · intro s src c r h delta held
    have hheld (t : State) (ht : t.circuit c = some r) (cause : HoldCause) : t.hold c cause =
        { t with billing := { t.billing with circuits := t.billing.circuits.set c { r with state := .held cause } } } :=
      State.hold_of_circuit ht cause
    refine ⟨fun hnone => State.runBilling_of_nothing h hnone, fun hread hlimit => ?_, fun hread hne hlimit => ⟨fun hmiss =>
      ⟨fun hlatch => ?_, fun l hlatch => ?_⟩, ?_⟩⟩
    · rw [State.runBilling_of_implausible h hread hlimit, State.reject, State.changeCircuit_of_circuit h]
      rfl
    · rw [State.runBilling_of_miss h hread hne hlimit hmiss, hheld s h, State.latchMiss]
      simp only [hlatch]
      rfl
    · rw [State.runBilling_of_miss h hread hne hlimit hmiss, hheld s h, State.latchMiss]
      simp only [hlatch]
      by_cases hc : l.circuit = c
      · simp only [hc, beq_self_eq_true, if_true]
        rfl
      · simp only [beq_eq_false_iff_ne.2 hc, Bool.false_eq_true, if_false, if_neg hc]
        rfl
    · intro n e hn he hit
      have hrun := State.runBilling_of_hit (src := src) h hread hne hlimit hn he
      have hhit : s.hitEntry n = hit := s.hitEntry_eq n
      rw [hhit] at hrun
      have hcircuit : hit.circuit c = some r := h
      refine ⟨fun hq => ?_, fun hq hdeny => ?_, ?_⟩
      · rw [hrun, if_pos ((hit.quarantined_iff _).2 hq), hheld hit hcircuit]
      · rw [hrun, if_neg (mt (hit.quarantined_iff _).1 hq), if_pos (Option.isSome_iff_ne_none.2 hdeny),
          hheld hit hcircuit]
      · intro hq hdeny rate hrate
        have hr : hit.billingRate src r = rate := by
          rw [hrate]
          cases src with
          | sweep => exact hit.billingRate_sweep r
          | stream k => exact hit.billingRate_stream k r
        rw [hrun, if_neg (mt (hit.quarantined_iff _).1 hq), if_neg (mt Option.isSome_iff_ne_none.1 (not_not.2 hdeny)),
          State.sendUpdate, hr]
        rfl
  · intro s b r h circuit
    refine ⟨fun hs o => by simp [State.applyOutcome, hs], fun hs => ?_⟩
    simp only [State.applyOutcome, hs, Bool.false_eq_true, if_false, State.credit, State.hold,
      State.changeCircuit_of_circuit h]
    exact ⟨rfl, rfl, rfl⟩
  · have hon : onStation m c = true := beq_iff_eq.2 hm
    rw [State.circuit_applyMeterReport, h, Option.map_some, if_pos hon, hx]
    simp only [Option.elim_some, Circuit.read, beq_iff_eq]
    rfl
  · have hon : onStation m c = true := beq_iff_eq.2 hm
    rw [State.circuit_unreadStation, h, Option.map_some, if_pos hon]
    cases stage <;> rfl
  · have hon : onStation m c = true := beq_iff_eq.2 hm
    rw [State.circuit_straddle, h, Option.map_some, hon]
    cases r.state <;> rfl
  · have hon : onStation m c = false := beq_eq_false_iff_ne.2 hm
    rw [State.circuit_applyMeterReport, State.circuit_unreadStation, State.circuit_straddle, hon]
    cases s.circuit c <;> exact ⟨rfl, rfl, rfl⟩
  · refine List.map_congr_left fun b _ => ?_
    simp only [onStation, beq_iff_eq]

end Sys2Proof.Machine
end

section
/-! PROOFS. Billing periods and hire records (11). -/

namespace Sys2Proof.Machine

/-! ### The lines of a close -/

theorem State.mem_leasedSets {s : State} {i : Nat} : i ∈ s.leasedSets ↔ s.lease i ≠ none := by
  simp only [leasedSets, List.mem_filter, List.mem_range, Option.isSome_iff_ne_none, and_iff_right_iff_imp]
  intro h
  by_contra hi
  exact h (by simp [lease, set, Table.used, s.sets.get_eq_none (Nat.le_of_not_lt hi)])

theorem State.leasedSets_sorted (s : State) : s.leasedSets.Pairwise (· < ·) := List.pairwise_lt_range.filter _

theorem State.leasedSets_judged (s : State) (p : Port) : (s.judged p).leasedSets = s.leasedSets := by
  simp only [leasedSets, lease, set, judged_sets]

/-- R195: what holds of a close once the leased sets of `pre` have been at the final step. -/
structure Closing (s : State) (counted pre : List Nat) (t : CloseTally) : Prop where
  total : t.lines.length + t.carried = pre.length
  room : s.period.hire.length + t.lines.length + (counted.filter fun i => decide (i ∉ pre)).length ≤ 24
  named : ∀ l ∈ t.lines, l.set ∈ pre
  sorted : t.lines.Pairwise fun x y => x.set < y.set
  formed : ∀ l ∈ t.lines, ∃ x, s.lease l.set = some x ∧ l = hireLine l.set .close x s.period.number s.now
  placed : ∀ i ∈ pre, (∃ l ∈ t.lines, l.set = i) ↔
    placeFor counted i (s.period.hire.length + (t.lines.filter fun l => decide (l.set < i)).length) = true

/-- R195: the next leased set is at the final step; the counted sets still to come lie above it. -/
theorem Closing.closeSet {s : State} {counted pre : List Nat} {t : CloseTally} {set : Nat} {x : Lease}
    (h : Closing s counted pre t) (hx : s.lease set = some x) (hbelow : ∀ j ∈ pre, j < set)
    (habove : ∀ j ∈ counted, j ∉ pre → j ≠ set → set < j) :
    Closing s counted (pre ++ [set]) (closeSet s counted s.period.number t set) := by
  have hnew : set ∉ pre := fun hmem => (hbelow set hmem).false
  have hlines : t.lines.filter (fun l => decide (l.set < set)) = t.lines :=
    List.filter_eq_self.2 fun l hl => decide_eq_true (hbelow _ (h.named l hl))
  have hfewer : (counted.filter fun i => decide (i ∉ pre ++ [set])).length ≤
      (counted.filter fun i => decide (i ∉ pre)).length :=
    (List.monotone_filter_right counted fun i hi => by simp_all).length_le
  have hlater : (counted.filter fun i => decide (i ∉ pre ++ [set])).length ≤
      (counted.filter fun i => decide (set < i)).length := by
    simp only [← List.countP_eq_length_filter]
    exact List.countP_mono_left fun i hi hn => by simp_all
  have hroom := h.room
  have hfilter (i : Nat) (hi : i ≤ set) (l : HireLine) (hl : l.set = set) :
      (t.lines ++ [l]).filter (fun l => decide (l.set < i)) = t.lines.filter fun l => decide (l.set < i) := by
    simp [List.filter_append, hl, hi]
  simp only [Machine.closeSet, hx]
  split
  next hplace =>
    refine ⟨by simp [← h.total]; omega, ?_, fun l hl => ?_, ?_, fun l hl => ?_, fun i hi => ?_⟩
    · by_cases hc : set ∈ counted
      · have : (counted.filter fun i => decide (i ∉ pre ++ [set])).length <
            (counted.filter fun i => decide (i ∉ pre)).length := by
          have heq : (counted.filter fun i => decide (i ∉ pre ++ [set])) =
              (counted.filter fun i => decide (i ∉ pre)).filter fun i => decide (i ≠ set) := by
            rw [List.filter_filter]
            exact List.filter_congr fun i _ => by simp [and_comm]
          rw [heq, List.length_filter_lt_length_iff_exists]
          exact ⟨set, by simp [hc, hnew], by simp⟩
        rw [List.length_append, List.length_singleton]
        omega
      · have : s.period.hire.length + t.lines.length + (counted.filter fun i => decide (set < i)).length < 24 :=
          of_decide_eq_true ((Bool.or_eq_true_iff.1 hplace).resolve_left (by simpa using hc))
        rw [List.length_append, List.length_singleton]
        omega
    · rcases List.mem_append.1 hl with hl | hl
      · exact List.mem_append_left _ (h.named l hl)
      · rw [List.mem_singleton.1 hl]
        exact List.mem_append_right _ (List.mem_singleton_self _)
    · refine List.pairwise_append.2 ⟨h.sorted, List.pairwise_singleton _ _, fun y hy z hz => ?_⟩
      rw [List.mem_singleton.1 hz]
      exact hbelow _ (h.named y hy)
    · rcases List.mem_append.1 hl with hl | hl
      · exact h.formed l hl
      · rw [List.mem_singleton.1 hl]
        exact ⟨x, hx, rfl⟩
    · rcases List.mem_append.1 hi with hi | hi
      · rw [hfilter i (hbelow i hi).le _ rfl, ← h.placed i hi]
        simp [List.mem_append, or_and_right, exists_or, hireLine, (hbelow i hi).ne']
      · cases List.mem_singleton.1 hi
        rw [hfilter set le_rfl _ rfl, hlines]
        exact iff_of_true ⟨_, List.mem_append_right _ (List.mem_singleton_self _), rfl⟩ hplace
  next hplace =>
    refine ⟨by simp [← h.total]; omega, by dsimp only; omega, fun l hl => List.mem_append_left _ (h.named l hl), h.sorted, h.formed,
      fun i hi => ?_⟩
    rcases List.mem_append.1 hi with hi | hi
    · exact h.placed i hi
    · cases List.mem_singleton.1 hi
      rw [hlines]
      exact iff_of_false (fun ⟨l, hl, he⟩ => hnew (he ▸ h.named l hl)) hplace

/-- R195: the leased sets still to come are at the final step one after the other. -/
theorem Closing.foldl {s : State} {counted : List Nat} (hleased : ∀ i ∈ counted, s.lease i ≠ none) :
    ∀ (rest pre : List Nat) (t : CloseTally), pre ++ rest = s.leasedSets → Closing s counted pre t →
      Closing s counted s.leasedSets (rest.foldl (Machine.closeSet s counted s.period.number) t)
  | [], pre, t, hall, h => by rwa [← hall, List.append_nil]
  | set :: rest, pre, t, hall, h => by
    have hsorted := hall ▸ s.leasedSets_sorted
    obtain ⟨-, hrest, hcross⟩ := List.pairwise_append.1 hsorted
    obtain ⟨x, hx⟩ := Option.ne_none_iff_exists'.1
      (State.mem_leasedSets.1 (hall ▸ List.mem_append_right pre (List.mem_cons_self (a := set) (l := rest))))
    refine Closing.foldl hleased rest (pre ++ [set]) _ (by simpa using hall)
      (h.closeSet hx (fun j hj => hcross j hj set List.mem_cons_self) fun j hj hpre hne => ?_)
    have hmem : j ∈ pre ++ set :: rest := hall ▸ State.mem_leasedSets.2 (hleased j hj)
    have : j ∈ rest := by simpa [hpre, hne] using hmem
    exact List.rel_of_pairwise_cons hrest this

/-- R195: the lines appended and the sets carried at the final step of a close. -/
def State.closeTally (s : State) (counted : List Nat) : CloseTally :=
  s.leasedSets.foldl (closeSet s counted s.period.number) ⟨[], 0⟩

theorem State.closing_closeTally {s : State} {counted : List Nat} (hroom : s.period.hire.length + counted.length ≤ 24)
    (hleased : ∀ i ∈ counted, s.lease i ≠ none) : Closing s counted s.leasedSets (s.closeTally counted) :=
  Closing.foldl hleased s.leasedSets [] ⟨[], 0⟩ rfl
    ⟨rfl, by simpa using hroom, by simp, List.Pairwise.nil, by simp, by simp⟩

/-! ### The final step -/

theorem State.finalStep_of_close {s : State} {c : CloseContext} (h : s.period.close = some c) :
    s.finalStep =
      ({ s with
        sets := s.sets.mapIdx fun i r =>
          if (s.closeTally c.counted).lines.any fun l => l.set == i then r.map SetRecord.newPeriod else r
        period :=
          { number := s.period.number + 1, opened := s.now, hire := s.period.hire ++ (s.closeTally c.counted).lines,
            close := none } } : State).post .periodClosed
        (be 1 s.period.number ++ be 1 (s.closeTally c.counted).lines.length ++ be 1 (s.closeTally c.counted).carried ++
          s.now.bytes) := by
  simp only [finalStep, h]
  rfl

theorem State.set_mapIdx {s u : State} {f : Nat → Option SetRecord → Option SetRecord} (h : u.sets = s.sets.mapIdx f)
    {i : Nat} {r : SetRecord} (hr : s.set i = some r) : u.set i = f i (some r) := by
  have hget : s.sets.get i = some (some r) := Option.join_eq_some_iff.1 hr
  rw [set, h, Table.used, Table.get_mapIdx, hget]
  rfl

/-- R160: a source that waits or has a billing in flight is engaged. -/
theorem BillingEngine.engaged_iff {b : BillingEngine} {src : Source} :
    b.engaged src = true ↔ (∃ w ∈ b.waiters, w.source = src) ∨ ∃ x ∈ b.inFlight, x.source = src := by
  simp [engaged]

theorem BillingEngine.not_engaged {b : BillingEngine} {src : Source} (hw : ∀ w ∈ b.waiters, w.source ≠ src)
    (hb : ∀ x ∈ b.inFlight, x.source ≠ src) : b.engaged src = false := by
  rw [Bool.eq_false_iff, Ne, engaged_iff]
  rintro (⟨w, hmem, h⟩ | ⟨x, hmem, h⟩)
  · exact hw w hmem h
  · exact hb x hmem h

theorem State.continueSource_of_engaged {s : State} {src : Source} (h : s.billing.engaged src = true) :
    s.continueSource src = s := by
  simp [continueSource, h]

theorem State.continueSource_sweep_none {s : State} (h : s.billing.sweep = none) : s.continueSource .sweep = s := by
  simp [continueSource, h]

theorem State.continueSource_sweep {s : State} {x : Sweep} (he : s.billing.engaged .sweep = false)
    (h : s.billing.sweep = some x) :
    s.continueSource .sweep = if 96 ≤ x.next then s.endSweep x.kind else s.reach .sweep x.next := by
  simp [continueSource, h, he]

theorem State.continueSource_stream {s : State} {k : Nat} {x : Stream} (he : s.billing.engaged (.stream k) = false)
    (h : s.billing.streams.get k = some x) :
    s.continueSource (.stream k) =
      match x.requests with
      | [] => s
      | r :: rest =>
        if 8 ≤ x.next then
          ({ s with billing.streams := s.billing.streams.set k ⟨rest, 0⟩ }.tell (.boundaryEnded r)).tell
            (.bill (.stream k))
        else s.reach (.stream k) (8 * r.station + x.next) := by
  simp only [continueSource, he, continueStream, h]
  rfl

/-! ### A source reaches a circuit -/

theorem State.reach_unread {s : State} {src : Source} {c : Nat} {r : Circuit} (h : s.circuit c = some r)
    (hr : r.state = .unread) : s.reach src c = s.goOn src := by
  simp [reach, h, hr]

theorem State.isInFlight_iff {s : State} {c : Nat} : s.isInFlight c = true ↔ ∃ b ∈ s.billing.inFlight, b.circuit = c := by
  simp [isInFlight]

theorem State.reach_marked {s : State} {src : Source} {c : Nat} {r : Circuit} (h : s.circuit c = some r)
    (hr : r.state ≠ .unread) (hm : s.isInFlight c = true) :
    s.reach src c = { s with billing := { s.billing with waiters := s.billing.waiters ++ [⟨src, c⟩] } } := by
  simp [reach, h, hr, hm]

theorem State.reach_unmarked {s : State} {src : Source} {c : Nat} {r : Circuit} (h : s.circuit c = some r)
    (hr : r.state ≠ .unread) (hm : s.isInFlight c = false) :
    s.reach src c = if (s.runBilling src c).2 = true then (s.runBilling src c).1 else (s.runBilling src c).1.goOn src := by
  simp only [reach, h, Option.elim_some, beq_iff_eq, hr, hm, if_false, Bool.false_eq_true]
  rcases s.runBilling src c with ⟨u, _ | _⟩ <;> rfl

/-! ### A close with nothing to bill -/

/-- A CLOSING sweep at circuit `n`, told to go on. -/
def State.sweepingAt (s : State) (n : Nat) : State :=
  { s with billing := { s.billing with sweep := some ⟨.closing, n⟩ }, told := [.bill .sweep] }

theorem State.settle_done {s : State} (n : Nat) (h : s.told = []) : State.settle n s = s := by
  cases n with
  | zero => rfl
  | succ n => simp [settle, h]

/-- R163: where every circuit is UNREAD and no source waits or bills, the sweep passes over all circuits to its end,
within the step. -/
theorem State.settle_sweepingAt {s : State} (htold : s.told = []) (he : s.billing.engaged .sweep = false)
    (hunread : ∀ c r, s.circuit c = some r → r.state = .unread)
    (hend : ({ s with billing := { s.billing with sweep := none } } : State).finalStep.told = []) (extra : Nat) :
    ∀ left n, n + left = 96 → State.settle (left + 1 + extra) (s.sweepingAt n) =
      ({ s with billing := { s.billing with sweep := none } } : State).finalStep
  | 0, n, hn => by
    have hstep : State.heed { s.sweepingAt n with told := [] } (.bill .sweep) =
        ({ s with billing := { s.billing with sweep := none } } : State).finalStep := by
      have hgo := continueSource_sweep (s := { s.sweepingAt n with told := [] }) (x := ⟨.closing, n⟩) he rfl
      rw [heed, hgo, if_pos (by dsimp only; omega), endSweep, ← htold]
      rfl
    rw [show 0 + 1 + extra = extra + 1 by omega]
    exact (congrArg (State.settle extra) hstep).trans (settle_done _ hend)
  | left + 1, n, hn => by
    obtain ⟨r, hr⟩ : ∃ r, s.circuit n = some r := by
      have := s.billing.circuits.get_isSome n
      rwa [decide_eq_true (by omega : n < 96), Option.isSome_iff_exists] at this
    have hstep : State.heed { s.sweepingAt n with told := [] } (.bill .sweep) = s.sweepingAt (n + 1) := by
      have hgo := continueSource_sweep (s := { s.sweepingAt n with told := [] }) (x := ⟨.closing, n⟩) he rfl
      have hpass := reach_unread (s := { s.sweepingAt n with told := [] }) (src := .sweep) hr (hunread n r hr)
      rw [heed, hgo, if_neg (by dsimp only; omega), hpass]
      rfl
    rw [show left + 1 + 1 + extra = (left + 1 + extra) + 1 by omega]
    exact (congrArg (State.settle (left + 1 + extra)) hstep).trans
      (settle_sweepingAt htold he hunread hend extra left (n + 1) (by omega))

/-! ### CLOSE PERIOD -/

/-- R193: the close context of a close that begins. -/
def State.closeBegun (s : State) : State := { s with period := { s.period with close := some ⟨false, s.leasedSets⟩ } }

theorem exec_closePeriod_offered {s : State} {tag : Byte} (h : Offered s .office 0x50 tag []) :
    exec (.closePeriod .office) s =
      .next (deliver .office (unlessRefused (s.judged .office)
        [(decide (s.period.close ≠ none), .refused .busy 0 0xFF), (decide (s.period.number = 255), .refused .range 0 0xFF),
          (decide (24 - s.period.hire.length < s.leasedSets.length), .refused .full 0 0xFF)]
        ((s.judged .office).closeBegun.callClosing.finish, some .accepted))).transmit := by
  rw [exec_of_empty (row := .closePeriod) (owner := finishing ownClosePeriod) rfl h rfl rfl, finishing, ownClosePeriod,
    finished_unlessRefused (by simp [refuse])]
  simp only [State.judged_period, ← Option.isSome_iff_ne_none, Bool.decide_eq_true, Config.hireCap, refuse, finished]
  rfl

theorem State.callClosing_idle {s : State} {c : CloseContext} (h : s.period.close = some c) (hs : s.billing.sweep = none) :
    s.callClosing =
      ({ s with
        period := { s.period with close := some { c with sweeping := true } }
        billing := { s.billing with sweep := some ⟨.closing, 0⟩, closingCalled := false } } : State).tell
          (.bill .sweep) := by
  rw [callClosing, hs, startClosing, h]
  rfl

theorem State.callClosing_busy {s : State} (hs : s.billing.sweep ≠ none) :
    s.callClosing = { s with billing := { s.billing with closingCalled := true } } := by
  rw [callClosing, Option.isNone_eq_false_iff.2 (Option.isSome_iff_ne_none.2 hs)]
  rfl

/-- Settles O47: the requests by their owners; the final step by what holds of the lines at each leased set; the sources
of billings branch by branch. -/
theorem periodsAreClosed : Obligations.PeriodsAreClosed := by
  refine ⟨fun r c hc => ⟨fun h => ?_, fun h => ?_, fun h h' => ?_⟩, ?_, ?_, fun s p tag h => ?_, ?_, fun s src h => ?_,
    fun s hw hb => ⟨fun h => ?_, ?_⟩, fun s k x hw hb h => ⟨fun hr => ?_, fun r more hr => ⟨fun hx => ?_, fun hx => ?_⟩⟩,
    fun s src c r h => ⟨fun hr => ?_, fun hr hm => ?_, fun hr hm => ⟨fun hrun => ?_, fun hrun => ?_⟩⟩, ?_⟩
  · rw [AccountRecord.roll, if_pos h]
  · rw [AccountRecord.roll, if_neg (by omega), if_pos h]
    rfl
  · rw [AccountRecord.roll, if_neg h, if_neg h']
    rfl
  · intro s tag h t leased
    refine (firstDecides_of (fun x => exec (.closePeriod .office) s = .next (deliver .office x).transmit)
      (exec_closePeriod_offered h)).imp (fun _ => id) fun hacc => ⟨fun hsweep => ?_, fun hsweep => ?_⟩
    · have hcall := State.callClosing_idle (s := t.closeBegun) (c := ⟨false, t.leasedSets⟩) rfl hsweep
      rw [hacc, hcall]
      rfl
    · have hcall := State.callClosing_busy (s := t.closeBegun) hsweep
      rw [hacc, hcall]
      rfl
  · intro s tag h t
    have hexec := exec_of_empty (c := .takeHireRecord .office) (row := .takeHireRecord) (owner := ownTakeHireRecord) rfl h rfl
      rfl
    refine ⟨fun hnil => ?_, fun l more hcons => ?_⟩
    · rw [hexec, ownTakeHireRecord, State.judged_period, hnil]
      rfl
    · rw [hexec, ownTakeHireRecord, State.judged_period, hcons]
      simp only [deliver_done, HireLine.bytes, Stamp.bytes, List.append_assoc]
      cases l.origin <;> rfl
  · intro counted
    rw [exec_of_empty (c := .readPeriod p) (row := .readPeriod) (owner := ownReadPeriod) rfl h (by cases p <;> rfl) rfl]
    simp only [ownReadPeriod, deliver_done, State.judged_period, Stamp.bytes, List.append_assoc, State.leasedSets_judged]
    cases hclose : s.period.close <;> simp only [counted, hclose] <;> rfl
  · intro s c h hroom _ hleased u
    have hstep := State.finalStep_of_close h
    have hlines := State.closing_closeTally hroom hleased
    generalize s.closeTally c.counted = t at hstep hlines
    have hsets : s.finalStep.sets = s.sets.mapIdx fun i r =>
        if t.lines.any fun l => l.set == i then r.map SetRecord.newPeriod else r :=
      (congrArg State.sets hstep).trans (State.post_sets _ _ _)
    have hcarried : s.leasedSets.length - t.lines.length = t.carried := by
      have := hlines.total
      omega
    have hany (i : Nat) : (t.lines.any fun l => l.set == i) = true ↔ ∃ l ∈ t.lines, l.set = i := by simp
    rw [show u = _ from hstep]
    refine ⟨by simp, by simp [State.now], by simp, ?_, ⟨t.lines, by simp, hlines.sorted, fun i hi => ?_,
      fun i _ hl hc => ?_, fun p => ?_, hlines.formed, fun i r x hr hx => ?_⟩, fun i r hr hx => ?_, by simp, by simp,
      by simp, by simp, by simp⟩
    · have := hlines.room
      simp only [State.post_period, List.length_append]
      omega
    · rw [hlines.placed i (State.mem_leasedSets.2 (hleased i hi))]
      simp [placeFor, hi]
    · rw [hlines.placed i (State.mem_leasedSets.2 hl)]
      simp only [placeFor, List.contains_eq_mem, hc, decide_false, Bool.false_or, Config.hireCap]
      exact decide_eq_true_iff
    · have hlen : ((List.range 12).filter fun i => (s.lease i).isSome).length - t.lines.length = t.carried := hcarried
      rw [hlen, State.port_post, State.port_post]
      simp only [State.now, Stamp.bytes, List.append_assoc]
      rfl
    · rw [← hstep, State.set_mapIdx hsets hr]
      simp only [hany]
      split <;> simp [SetRecord.newPeriod, hx]
    · rw [← hstep, State.set_mapIdx hsets hr]
      split <;> cases r <;> simp_all [SetRecord.newPeriod]
  · exact s.continueSource_of_engaged (BillingEngine.engaged_iff.2 h)
  · exact s.continueSource_sweep_none h
  · intro x hx ended
    have he := s.continueSource_sweep (BillingEngine.not_engaged hw hb) hx
    refine ⟨fun hn => ?_, fun hn hk => ?_, fun hn hk hc => ?_, fun hn hk hc => ?_⟩
    · rw [he, if_neg (Nat.not_le.2 hn)]
    · rw [he, if_pos hn, hk]
      rfl
    · rw [he, if_pos hn, hk]
      exact if_neg (Bool.eq_false_iff.1 hc)
    · rw [he, if_pos hn, hk]
      exact if_pos hc
  · rw [s.continueSource_stream (BillingEngine.not_engaged hw hb) h, hr]
  · rw [s.continueSource_stream (BillingEngine.not_engaged hw hb) h, hr]
    exact if_neg (Nat.not_le.2 hx)
  · rw [s.continueSource_stream (BillingEngine.not_engaged hw hb) h, hr]
    exact if_pos hx
  · exact State.reach_unread h hr
  · exact State.reach_marked h hr (State.isInFlight_iff.2 hm)
  · rw [State.reach_unmarked h hr (Bool.eq_false_iff.2 fun h' => ?_), if_pos hrun]
    obtain ⟨b, hb, hbc⟩ := State.isInFlight_iff.1 h'
    exact hm b hb hbc
  · rw [State.reach_unmarked h hr (Bool.eq_false_iff.2 fun h' => ?_), if_neg (Bool.eq_false_iff.1 hrun)]
    obtain ⟨b, hb, hbc⟩ := State.isInFlight_iff.1 h'
    exact hm b hb hbc
  · intro s tag h htold hsweep hw hb hunread hclose hnumber leased hroom
    let t := s.judged .office
    let u : State :=
      { t with
        period := { s.period with close := some ⟨true, leased⟩ }
        billing := { s.billing with closingCalled := false } }
    have hend : u.finalStep = ({ u with billing := { u.billing with sweep := none } } : State).finalStep := by
      simp only [u, hsweep]
    have hquiet : ({ u with billing := { u.billing with sweep := none } } : State).finalStep.told = [] := by
      rw [State.finalStep_of_close (c := ⟨true, leased⟩) rfl, State.post_told]
      exact htold
    have hroom : s.leasedSets.length ≤ 24 - s.period.hire.length := hroom
    have hsettle := State.settle_sweepingAt (s := u) htold (BillingEngine.not_engaged hw hb) hunread hquiet 3999 96 0 rfl
    have hcall := State.callClosing_idle (s := t.closeBegun) (c := ⟨false, t.leasedSets⟩) rfl hsweep
    have hacc := exec_closePeriod_offered h
    rw [unlessRefused_of_none (by simpa [hclose, hnumber, Config.hireCap] using hroom)] at hacc
    have htell : t.closeBegun.callClosing = u.sweepingAt 0 := by
      have htold' : t.told ++ [.bill .sweep] = [.bill .sweep] := by rw [State.judged_told, htold, List.nil_append]
      exact hcall.trans (congrArg (fun l => { u.sweepingAt 0 with told := l }) htold')
    rw [hacc, hend, ← hsettle, ← htell]
    rfl

end Sys2Proof.Machine
end

section
/-! PROOFS. The yard line (04): frames on the line and status reports. -/

namespace Sys2Proof.Machine

/-! ### The receiver -/

theorem lineRun_cons_of_none {r r' : LineReceiver} {b : Byte} {rest : List Byte} (h : lineByte r b = (r', none)) :
    lineRun r (b :: rest) = lineRun r' rest := by
  rw [lineRun, h]

theorem lineRun_cons_of_some {r r' : LineReceiver} {b : Byte} {rest : List Byte} {e : LineEnd}
    (h : lineByte r b = (r', some e)) : lineRun r (b :: rest) = (r', some (e, rest)) := by
  rw [lineRun, h]

/-- R47: a hunting receiver passes over what is no mark. -/
theorem lineRun_noise {noise : List Byte} (h : ∀ b ∈ noise, b ≠ mark) (rest : List Byte) :
    lineRun .hunting (noise ++ rest) = lineRun .hunting rest := by
  induction noise with
  | nil => rfl
  | cons b noise ih =>
    obtain ⟨hb, hn⟩ := List.forall_mem_cons.1 h
    rw [List.cons_append, lineRun_cons_of_none (r' := .hunting) (by simp [lineByte, hb]), ih hn]

/-- R47: marks before the first body byte keep the receiver at the start of a frame. -/
theorem lineRun_fill (fill : Nat) (rest : List Byte) :
    lineRun (.receiving [] false) (List.replicate fill mark ++ rest) = lineRun (.receiving [] false) rest := by
  induction fill with
  | zero => rfl
  | succ fill ih => rw [List.replicate_succ, List.cons_append, lineRun_cons_of_none (r' := .receiving [] false) rfl, ih]

theorem lineRun_mark (rest : List Byte) : lineRun .hunting (mark :: rest) = lineRun (.receiving [] false) rest :=
  lineRun_cons_of_none rfl

theorem lineRun_marks (fill : Nat) (rest : List Byte) :
    lineRun .hunting (List.replicate fill mark ++ mark :: rest) = lineRun (.receiving [] false) rest := by
  cases fill with
  | zero => exact lineRun_mark rest
  | succ fill =>
    rw [List.replicate_succ, List.cons_append, lineRun_mark, lineRun_fill,
      lineRun_cons_of_none (r' := .receiving [] false) rfl]

theorem lineRun_escape (body rest : List Byte) :
    lineRun (.receiving body false) (escape :: rest) = lineRun (.receiving body true) rest :=
  lineRun_cons_of_none rfl

/-- R46, R47: one body byte, as it stands or escaped, joins the body. -/
theorem lineRun_escaped_byte {acc : List Byte} (b : Byte) (rest : List Byte) (h : acc.length < 53) :
    lineRun (.receiving acc false) (escaped [b] ++ rest) = lineRun (.receiving (acc ++ [b]) false) rest := by
  by_cases hb : b = mark ∨ b = escape
  · have hesc : escaped [b] = [escape, b ^^^ 0x20#8] := by rcases hb with rfl | rfl <;> rfl
    have hne : (b ^^^ 0x20#8 == mark) = false := by rcases hb with rfl | rfl <;> rfl
    have hback : (b ^^^ 0x20#8) ^^^ 0x20#8 = b := by rcases hb with rfl | rfl <;> rfl
    rw [hesc, List.cons_append, lineRun_escape, List.cons_append, List.nil_append,
      lineRun_cons_of_none (r' := .receiving (acc ++ [b]) false) (by simp [lineByte, hne, hback, collect, h])]
  · obtain ⟨hm, he⟩ := not_or.1 hb
    have hesc : escaped [b] = [b] := by simp [escaped, hm, he]
    rw [hesc, List.cons_append, List.nil_append,
      lineRun_cons_of_none (r' := .receiving (acc ++ [b]) false) (by simp [lineByte, hm, he, collect, h])]

/-- R47: the 54th body byte ends the frame. -/
theorem lineRun_escaped_overlong {acc : List Byte} (b : Byte) (rest : List Byte) (h : acc.length = 53) :
    lineRun (.receiving acc false) (escaped [b] ++ rest) = (.hunting, some (.overlong, rest)) := by
  by_cases hb : b = mark ∨ b = escape
  · have hesc : escaped [b] = [escape, b ^^^ 0x20#8] := by rcases hb with rfl | rfl <;> rfl
    have hne : (b ^^^ 0x20#8 == mark) = false := by rcases hb with rfl | rfl <;> rfl
    rw [hesc, List.cons_append, lineRun_escape, List.cons_append, List.nil_append,
      lineRun_cons_of_some (r' := .hunting) (e := .overlong) (by simp [lineByte, hne, collect, h])]
  · obtain ⟨hm, he⟩ := not_or.1 hb
    have hesc : escaped [b] = [b] := by simp [escaped, hm, he]
    rw [hesc, List.cons_append, List.nil_append,
      lineRun_cons_of_some (r' := .hunting) (e := .overlong) (by simp [lineByte, hm, he, collect, h])]

theorem escaped_cons (b : Byte) (body : List Byte) : escaped (b :: body) = escaped [b] ++ escaped body := by
  simp only [escaped]
  split <;> rfl

theorem escaped_append (xs ys : List Byte) : escaped (xs ++ ys) = escaped xs ++ escaped ys := by
  induction xs with
  | nil => rfl
  | cons b xs ih => rw [List.cons_append, escaped_cons, ih, escaped_cons b xs, List.append_assoc]

/-- R46, R47: a body of up to 53 bytes is read back. -/
theorem lineRun_escaped {body : List Byte} (rest : List Byte) : ∀ {acc : List Byte}, acc.length + body.length ≤ 53 →
    lineRun (.receiving acc false) (escaped body ++ rest) = lineRun (.receiving (acc ++ body) false) rest := by
  induction body with
  | nil => intro acc _; rw [List.append_nil]; rfl
  | cons b body ih =>
    intro acc h
    rw [List.length_cons] at h
    rw [escaped_cons, List.append_assoc, lineRun_escaped_byte b _ (by omega),
      ih (by rw [List.length_append, List.length_singleton]; omega), List.append_assoc, List.singleton_append]

/-- R47: a mark after a body closes it. -/
theorem lineRun_close {body : List Byte} (h : body ≠ []) :
    lineRun (.receiving body false) [mark] = (.hunting, some (closeBody body, [])) :=
  lineRun_cons_of_some (by simp [lineByte, h])

theorem closeBody_append {head check : List Byte} (hcheck : check.length = 2) :
    closeBody (head ++ check) =
      match head with
      | destination :: source :: kind :: payload =>
        if checkBytes head = check then .good destination source kind payload else .bad
      | _ => .bad := by
  have hlen : (head ++ check).length - 2 = head.length := by rw [List.length_append, hcheck]; rfl
  rw [closeBody, hlen, List.take_left, List.drop_left]
  simp only [beq_iff_eq] <;> rfl

theorem closeBody_bad {head check : List Byte} (hcheck : check.length = 2) (hbad : checkBytes head ≠ check) :
    closeBody (head ++ check) = .bad := by
  rw [closeBody_append hcheck]
  split
  next => exact if_neg hbad
  next => rfl

/-- R47: a body shorter than a destination, a source, a kind and a check is bad. -/
theorem closeBody_short {body : List Byte} (h : body.length < 5) : closeBody body = .bad := by
  rw [closeBody]
  have hlen : (body.take (body.length - 2)).length < 3 := by rw [List.length_take]; omega
  split
  next hb => rw [hb, List.length_cons, List.length_cons, List.length_cons] at hlen; omega
  next => rfl

theorem endingOf_bytes {raw : List Byte} {r : LineReceiver} {e : LineEnd} (h : lineRun .hunting raw = (r, some (e, []))) :
    endingOf (.bytes raw) = some e := by
  rw [endingOf, h]

theorem endingOf_framingError {raw body : List Byte} {esc : Bool}
    (h : lineRun .hunting raw = (.receiving body esc, none)) : endingOf (.framingError raw) = some .bad := by
  rw [endingOf, h]

/-- R46, R47: what a closed body heard on the line makes. -/
theorem endingOf_closed {body : List Byte} (hne : body ≠ []) (hlen : body.length ≤ 53) (noise : List Byte)
    (hnoise : ∀ b ∈ noise, b ≠ mark) (fill : Nat) :
    endingOf (.bytes (noise ++ List.replicate fill mark ++ (mark :: escaped body ++ [mark]))) = some (closeBody body) := by
  refine endingOf_bytes (r := .hunting) ?_
  rw [List.append_assoc, lineRun_noise hnoise, List.cons_append, lineRun_marks,
    lineRun_escaped _ (by simpa using hlen), List.nil_append, lineRun_close hne]

/-! ### Status reports -/

theorem be_one_toNat (b : Byte) : be 1 b.toNat = [b] := by
  simp [be]

theorem reportOf_of_length {c : StationClass} {now : Stamp} {bs : List Byte} (h : bs.length ≠ c.reportBytes) :
    reportOf c now bs = none := by
  unfold reportOf
  exact if_pos h

theorem reportOf_set {now : Stamp} {engine alarm : Byte} {level energy power : Nat} (hl : level < 65536)
    (he : energy < 4294967296) (hp : power < 65536) :
    reportOf .set now (engine :: alarm :: (be 2 level ++ be 4 energy ++ be 2 power)) =
      (engineOf engine.toNat).map fun e => .set ⟨e, alarm, level, BitVec.ofNat 32 energy, power, now⟩ := by
  have henc : engine :: alarm :: (be 2 level ++ be 4 energy ++ be 2 power) =
      encodeFields [(1, engine.toNat), (1, alarm.toNat), (2, level), (4, energy), (2, power)] := by
    simp [encodeFields, be_one_toNat]
  have hvals := fieldValues_encodeFields
    (xs := [(1, engine.toNat), (1, alarm.toNat), (2, level), (4, energy), (2, power)])
    (by simp [hl, he, hp, engine.isLt, alarm.isLt])
  rw [← henc] at hvals
  rw [reportOf, if_neg (by simp [StationClass.reportBytes, be])]
  simp only [setReportOf]
  simp only [List.map_cons, List.map_nil] at hvals
  rw [hvals]
  simp

theorem reportOf_bowser {now : Stamp} {pump : Byte} {count : Nat} (hc : count < 4294967296) :
    reportOf .bowser now (pump :: be 4 count) =
      if pump.toNat < 2 then some (.bowser ⟨pump.toNat == 1, BitVec.ofNat 32 count⟩) else none := by
  have henc : pump :: be 4 count = encodeFields [(1, pump.toNat), (4, count)] := by simp [encodeFields, be_one_toNat]
  have hvals := fieldValues_encodeFields (xs := [(1, pump.toNat), (4, count)]) (by simp [hc, pump.isLt])
  rw [← henc] at hvals
  rw [reportOf, if_neg (by simp [StationClass.reportBytes, be])]
  simp only [bowserReportOf]
  simp only [List.map_cons, List.map_nil] at hvals
  rw [hvals]

theorem reportOf_board {now : Stamp} {inputs : Byte} {demand : Nat} (hd : demand < 65536) :
    reportOf .board now (inputs :: be 2 demand) =
      if inputs.toNat < 16 then
        some (.board ⟨inputs.getLsbD 0, inputs.getLsbD 1, inputs.getLsbD 2, inputs.getLsbD 3, demand⟩)
      else none := by
  have henc : inputs :: be 2 demand = encodeFields [(1, inputs.toNat), (2, demand)] := by
    simp [encodeFields, be_one_toNat]
  have hvals := fieldValues_encodeFields (xs := [(1, inputs.toNat), (2, demand)]) (by simp [hd, inputs.isLt])
  rw [← henc] at hvals
  rw [reportOf, if_neg (by simp [StationClass.reportBytes, be])]
  simp only [boardReportOf]
  simp only [List.map_cons, List.map_nil] at hvals
  rw [hvals]
  simp only [bitOf_eq_testBit]
  rfl

theorem reportOf_meter {now : Stamp} {counters : List Word32} (h : counters.length = 8) :
    reportOf .meter now (counters.flatMap fun x => be 4 x.toNat) = some (.meter counters) := by
  have henc : (counters.flatMap fun x => be 4 x.toNat) = encodeFields (counters.map fun x => (4, x.toNat)) := by
    rw [encodeFields, List.flatMap_map]
  have hwidths : (counters.map fun x => (4, x.toNat)).map Prod.fst = [4, 4, 4, 4, 4, 4, 4, 4] := by
    rw [List.map_map]
    exact (List.map_const' ..).trans (by rw [h]; rfl)
  have hvals := fieldValues_encodeFields (xs := counters.map fun x => (4, x.toNat)) (by
    simp only [List.mem_map, forall_exists_index, and_imp, forall_apply_eq_imp_iff₂]
    exact fun x _ => x.isLt)
  rw [hwidths] at hvals
  have hlen : (counters.flatMap fun x => be 4 x.toNat).length = StationClass.meter.reportBytes := by
    rw [henc, length_encodeFields, hwidths]; rfl
  rw [reportOf, if_neg (not_not.2 hlen)]
  simp only [meterReportOf]
  rw [henc, hvals, List.map_map, List.map_map]
  congr 2
  exact List.map_id'' (fun x => BitVec.ofNat_toNat 32 x |>.trans (BitVec.setWidth_eq x)) _

/-- Settles O18: frames by the runs of the receiver, reports by their fields. -/
theorem lineFramesAndReportsAreReadBack : Obligations.LineFramesAndReportsAreReadBack := by
  refine ⟨⟨fun noise fill destination source kind payload hnoise hlen => ?_, fun body hpos hlen => ?_, fun body hlen => ?_⟩,
    fun c now bs h => ?_, fun now engine alarm level energy power hl he hp => ?_,
    fun now pump count hc => reportOf_bowser hc, fun now inputs demand hd => reportOf_board hd,
    fun now counters h => reportOf_meter h⟩
  · have hcheck := length_checkBytes (destination :: source :: kind :: payload)
    refine (endingOf_closed (by simp) ?_ noise hnoise fill).trans ?_
    · rw [List.length_append, hcheck, List.length_cons, List.length_cons, List.length_cons]
      omega
    · rw [closeBody_append hcheck]
      exact congrArg some (if_pos rfl)
  · have hne : body ≠ [] := List.ne_nil_of_length_pos hpos
    have hclosed : endingOf (.bytes (mark :: escaped body ++ [mark])) = some (closeBody body) :=
      endingOf_closed hne hlen [] (by simp) 0
    have hrun (rest : List Byte) :
        lineRun .hunting (mark :: escaped body ++ rest) = lineRun (.receiving body false) rest := by
      rw [List.cons_append, lineRun_mark, lineRun_escaped rest (by simpa using hlen),
        List.nil_append]
    refine ⟨fun hshort => ?_, fun head check hb hc _ hbad => ?_, ?_, ?_⟩
    · exact hclosed.trans (congrArg some (closeBody_short hshort))
    · rw [hb] at hclosed ⊢
      exact hclosed.trans (congrArg some (closeBody_bad hc hbad))
    · have haborted : lineRun .hunting (mark :: escaped body ++ [escape, mark]) = (.hunting, some (.aborted, [])) := by
        rw [hrun, lineRun_escape, lineRun_cons_of_some rfl]
      exact endingOf_bytes haborted
    · have hopen : lineRun .hunting (mark :: escaped body) = (.receiving body false, none) := by
        rw [← List.append_nil (mark :: escaped body), hrun, lineRun]
      exact endingOf_framingError hopen
  · obtain ⟨init, last, hb⟩ : ∃ init last, body = init ++ [last] :=
      ⟨_, _, (List.dropLast_append_getLast (List.ne_nil_of_length_pos (by omega))).symm⟩
    have hinit : init.length = 53 := by
      rw [hb, List.length_append, List.length_singleton] at hlen
      omega
    have hrun : lineRun .hunting (mark :: escaped body) = (.hunting, some (.overlong, [])) := by
      have hlast := lineRun_escaped_overlong last [] hinit
      rw [List.append_nil] at hlast
      rw [lineRun_mark, hb, escaped_append, lineRun_escaped _ (by simp [hinit]), List.nil_append, hlast]
    exact endingOf_bytes hrun
  · refine reportOf_of_length fun hlen => h ?_
    rw [hlen]
    cases c <;> rfl
  · refine (reportOf_set hl he hp).trans ?_
    congr 1

end Sys2Proof.Machine
end

section
/-! PROOFS. Stations enrolled, removed and read (04). -/

namespace Sys2Proof.Machine

/-! ### The station table -/

theorem Table.find_isSome {n : Nat} {α : Type} (t : Table n α) (p : α → Bool) : (t.find p).isSome = t.cells.any p := by
  rw [Bool.eq_iff_iff, List.any_eq_true, Option.isSome_iff_ne_none, Ne, Table.find_eq_none]
  constructor
  · intro h
    simp only [not_forall, Bool.not_eq_false] at h
    obtain ⟨i, x, hx, hp⟩ := h
    exact ⟨x, List.mem_of_getElem? hx, hp⟩
  · rintro ⟨x, hx, hp⟩ h
    obtain ⟨i, hi⟩ := List.getElem?_of_mem hx
    rw [h i x hi] at hp
    exact Bool.false_ne_true hp

theorem Table.used_eq_some {n : Nat} {α : Type} {t : Table n (Option α)} {i : Nat} {x : α} :
    t.used i = some x ↔ t.get i = some (some x) := Option.join_eq_some_iff

/-- The predicate of a used entry is that of its content. -/
theorem Option.elim_false_eq_any {α : Type} (e : Option α) (p : α → Bool) : e.elim false p = e.any p := by
  cases e <;> rfl

theorem Line.entryAt_isSome (l : Line) (a : Nat) :
    (l.entryAt a).isSome = l.stations.cells.any fun e => e.any fun st => st.address == a := by
  simp only [entryAt, Table.find_isSome, Option.elim_false_eq_any]

/-- R52: the station of an object is the first used entry of its class and index. -/
theorem Line.enrolled_eq (l : Line) (c : StationClass) (o : Nat) :
    l.enrolled c o = l.stations.cells.any fun e => e.any fun st => st.cls == c && st.object == o := by
  have hstation : l.enrolled c o = (l.entryOf c o).isSome := by
    rw [enrolled, station]
    cases h : l.entryOf c o with
    | none => rfl
    | some i =>
      obtain ⟨⟨x, hx, hp⟩, -⟩ := (Table.find_eq_some _ _ _).1 h
      cases x with
      | none => exact absurd hp Bool.false_ne_true
      | some st => rw [Option.bind_some, Table.used_eq_some.2 hx]; rfl
  rw [hstation, entryOf, Table.find_isSome]
  simp only [Option.elim_false_eq_any]

theorem Line.freeEntry_isNone (l : Line) : l.freeEntry.isNone = l.stations.cells.all fun e => e.isSome := by
  rw [freeEntry, ← Option.not_isSome, Table.find_isSome, List.not_any_eq_all_not]
  simp

theorem Line.entryAt_of_first {l : Line} {a e : Nat} {st : Station} (h : l.stations.get e = some (some st))
    (ha : st.address = a) (hlow : ∀ j < e, ∀ x, l.stations.get j = some (some x) → x.address ≠ a) :
    l.entryAt a = some e := by
  rw [entryAt, Table.find_eq_some]
  refine ⟨⟨_, h, by simp [ha]⟩, fun j hj x hx => ?_⟩
  cases x with
  | none => rfl
  | some y => simpa using hlow j hj y hx

theorem Line.entryAt_of_none {l : Line} {a : Nat} (h : ∀ st, some st ∈ l.stations.cells → st.address ≠ a) :
    l.entryAt a = none := by
  rw [entryAt, Table.find_eq_none]
  intro i x hx
  cases x with
  | none => rfl
  | some y => simpa using h y (List.mem_of_getElem? hx)

/-! ### ENROL STATION -/

theorem classOf_eq_none {c : Nat} (h : 3 < c) : classOf c = none := by
  obtain ⟨n, rfl⟩ := Nat.exists_eq_add_of_lt h
  rw [show 3 + n + 1 = n + 4 by omega]
  rfl

theorem StationClass.classOf_value (c : StationClass) : classOf c.value = some c := by
  cases c <;> rfl

theorem exists_class_value {c : Nat} (h : ¬3 < c) : ∃ cls : StationClass, c = cls.value := by
  obtain rfl | rfl | rfl | rfl : c = 0 ∨ c = 1 ∨ c = 2 ∨ c = 3 := by omega
  exacts [⟨.set, rfl⟩, ⟨.bowser, rfl⟩, ⟨.board, rfl⟩, ⟨.meter, rfl⟩]

/-- R53: the checks of ENROL STATION, as they read where the class is known. -/
def enrolRefusals (s : State) (a c o k : Nat) : List (Bool × Reply) :=
  [(decide (a = 0 ∨ 62 < a), .refused .range 1 0xFF),
    (decide (3 < c), .refused .range 2 0xFF),
    (decide ((if c = 1 then 2 else if c = 2 then 7 else 11) < o), .refused .range 3 0xFF),
    (decide (if c = 3 then 7 < k else k ≠ 0), .refused .range 4 0xFF),
    (s.line.stations.cells.any fun e => e.any fun st => st.address == a, .refused .conflict 1 0xFF),
    (s.line.stations.cells.any fun e => e.any fun st => st.cls.value == c && st.object == o, .refused .conflict 3 0xFF),
    (decide (c = 3) && (s.stage k).any fun x => x.isChanging, .refused .state 4 0xFF),
    (s.line.stations.cells.all fun e => e.isSome, .refused .full 0 0xFF)]

theorem StationClass.value_beq (c d : StationClass) : (c.value == d.value) = (c == d) := by
  cases c <;> cases d <;> rfl

/-- An unknown class is refused before a check that asks for its class is reached. -/
theorem unlessRefused_enrol (s t : State) (a c o k : Nat) (act : Answered) :
    unlessRefused t (enrolChecks s.line a c o k ++
      [(classOf c == some .meter && (s.stage k).elim false Stage.isChanging, refuse .state 4),
        (s.line.freeEntry.isNone, refuse .full 0)]) act = unlessRefused t (enrolRefusals s a c o k) act := by
  by_cases hc : 3 < c
  · simp [enrolChecks, enrolRefusals, unlessRefused_cons, hc, refuse, Bool.decide_or, beq_eq_decide]
  · obtain ⟨cls, rfl⟩ := exists_class_value hc
    have hlist : enrolChecks s.line a cls.value o k ++
        [(classOf cls.value == some .meter && (s.stage k).elim false Stage.isChanging, refuse .state 4),
          (s.line.freeEntry.isNone, refuse .full 0)] = enrolRefusals s a cls.value o k := by
      simp only [enrolChecks, enrolRefusals, StationClass.classOf_value, Option.elim_some, Line.entryAt_isSome,
        Line.enrolled_eq, Line.freeEntry_isNone, StationClass.value_beq, Option.elim_false_eq_any, refuse]
      have haddress : (a == 0 || decide (62 < a)) = decide (a = 0 ∨ 62 < a) := by rw [Bool.decide_or, beq_eq_decide]
      have hobject : decide (cls.lastObject < o) =
          decide ((if cls.value = 1 then 2 else if cls.value = 2 then 7 else 11) < o) := by
        cases cls <;> exact decide_eq_decide.2 Iff.rfl
      have hstage : (if some cls == some StationClass.meter then decide (7 < k) else k != 0) =
          decide (if cls.value = 3 then 7 < k else k ≠ 0) := by
        cases cls <;> simp [StationClass.value, bne, beq_eq_decide]
      have hmeter : (some cls == some StationClass.meter) = decide (cls.value = 3) := by cases cls <;> rfl
      rw [haddress, hobject, hstage, hmeter]
      rfl
    rw [hlist]

theorem exec_enrolStation_offered {s : State} {tag : Byte} {a c o k : Nat} (ha : a < 256) (hc : c < 256) (ho : o < 256)
    (hk : k < 256) (h : Offered s .yard 0x20 tag (be 1 a ++ be 1 c ++ be 1 o ++ be 1 k)) :
    exec (.enrolStation .yard) s =
      .next (deliver .yard (unlessRefused (s.judged .yard) (enrolRefusals s a c o k)
        (finished (match s.line.freeEntry, classOf c with
          | some e, some c => done ((s.judged .yard).enrol e a c o k) (be 1 e)
          | _, _ => (s.judged .yard, some (refuse .full 0)))))).transmit := by
  rw [exec_of_fields (row := .enrolStation) (owner := finishing ownEnrolStation) rfl h rfl [(1, a), (1, c), (1, o), (1, k)]
    rfl (by simp [ha, hc, ho, hk]) (by simp [encodeFields]), finishing]
  simp only [List.map_cons, List.map_nil, ownEnrolStation, arg, Nat.sub_self, List.getD_cons_zero, Nat.reduceSub,
    List.getD_cons_succ]
  have hstate : enrolChecks (s.judged .yard).line a c o k ++
      [(classOf c == some .meter && ((s.judged .yard).stage k).elim false Stage.isChanging, refuse .state 4),
        ((s.judged .yard).line.freeEntry.isNone, refuse .full 0)] =
      enrolChecks s.line a c o k ++
      [(classOf c == some .meter && (s.stage k).elim false Stage.isChanging, refuse .state 4),
        (s.line.freeEntry.isNone, refuse .full 0)] := rfl
  rw [hstate, unlessRefused_enrol, finished_unlessRefused (by simp [enrolRefusals])]
  rfl

/-! ### READ STATION -/

theorem Line.stationData_eq (l : Line) (e : Nat) (st : Station) :
    l.stationData e st =
      be 1 e ++ be 1 st.address ++ be 1 st.cls.value ++ be 1 st.object ++ be 1 st.stage ++
        be 1 (match st.state with | .unknown => 0 | .answering => 1 | .lost => 2) ++ be 1 st.run ++
        (match st.lastGood with
          | some x => be 1 1 ++ be 1 x.day ++ be 3 x.second
          | none => be 1 0 ++ be 1 0 ++ be 3 0) ++
        be 1 (match st.lastFault with
          | none => 0
          | some .silent => 1
          | some .badCheck => 2
          | some .wrongSource => 3
          | some .tooLong => 4
          | some .aborted => 5
          | some .nak => 6) ++
        be 1 (l.queue.filter fun c => c.isFor st.cls st.object).length := by
  have hgood : be 1 (flag st.lastGood.isSome) ++ stampBytes st.lastGood =
      match st.lastGood with
      | some x => be 1 1 ++ be 1 x.day ++ be 3 x.second
      | none => be 1 0 ++ be 1 0 ++ be 3 0 := by
    cases st.lastGood <;> rfl
  have hstate : st.state.value = match st.state with | .unknown => 0 | .answering => 1 | .lost => 2 := by
    cases st.state <;> rfl
  have hfault : faultValue st.lastFault =
      match st.lastFault with
      | none => 0
      | some .silent => 1
      | some .badCheck => 2
      | some .wrongSource => 3
      | some .tooLong => 4
      | some .aborted => 5
      | some .nak => 6 := by
    rcases st.lastFault with _ | f
    · rfl
    · cases f <;> rfl
  rw [stationData, queuedFor, hstate, hfault, ← hgood]
  simp only [List.append_assoc]

theorem exec_readStation_offered {s : State} {p : Port} {tag : Byte} {a : Nat} (ha : a < 256)
    (h : Offered s p 0x22 tag (be 1 a)) :
    exec (.readStation p) s = .next (deliver p (ownReadStation [a] (s.judged p))).transmit :=
  exec_of_fields (row := .readStation) rfl h (by cases p <;> rfl) [(1, a)] rfl (by simp [ha]) (by simp [encodeFields])

/-- Settles O19: the checks in their order, the entry by the table's search. -/
theorem stationsAreEnrolledAndRead : Obligations.StationsAreEnrolledAndRead := by
  refine ⟨fun c => by cases c <;> rfl, ?_, ?_⟩
  · intro s tag a c o k ha hc ho hk h t usedBy
    have hexec := exec_enrolStation_offered ha hc ho hk h
    obtain ⟨hrefused, haccepted⟩ :=
      firstDecides_of (fun x => exec (.enrolStation .yard) s = .next (deliver .yard x).transmit) hexec
    refine ⟨hrefused, fun hnone => ?_⟩
    have hacc := haccepted hnone
    have hclass : ¬3 < c := of_decide_eq_false (hnone (decide (3 < c), .refused .range 2 0xFF) (by simp))
    have hfree : s.line.freeEntry.isNone = false := by
      rw [Line.freeEntry_isNone]
      exact hnone (s.line.stations.cells.all fun e => e.isSome, .refused .full 0 0xFF) (by simp)
    obtain ⟨cls, hvalue⟩ := exists_class_value hclass
    have hcls : classOf c = some cls := hvalue ▸ cls.classOf_value
    obtain ⟨e, he⟩ := Option.isSome_iff_exists.1 (Option.isNone_eq_false_iff.1 hfree)
    obtain ⟨⟨x, hx, hxnone⟩, hlow⟩ := (Table.find_eq_some _ _ _).1 he
    refine ⟨e, cls, hcls, ?_, fun j hj => ?_, ?_⟩
    · rw [hx, Option.isNone_iff_eq_none.1 hxnone]
    · have hjlt : j < 40 := hj.trans (s.line.stations.lt_of_get hx)
      obtain ⟨y, hy⟩ := Option.isSome_iff_exists.1 ((s.line.stations.get_isSome j).trans (decide_eq_true hjlt))
      cases y with
      | none => exact absurd (hlow j hj none hy) (by simp)
      | some st => exact ⟨st, hy⟩
    · intro line
      rw [hacc, he, hcls]
      cases cls <;> rfl
  · intro s p tag a ha h t
    rw [exec_readStation_offered ha h]
    simp only [ownReadStation, arg, Nat.sub_self, List.getD_cons_zero, State.judged_line]
    refine ⟨fun hhigh => ?_, fun hlow hhigh hno => ?_, fun e st hlow hhigh hst hadr hfirst => ?_, fun hzero => ?_⟩
    · rw [if_pos hhigh]
      rfl
    · rw [if_neg (Nat.not_lt.2 hhigh), if_neg (by simp; omega), Line.entryAt_of_none hno]
      rfl
    · rw [if_neg (Nat.not_lt.2 hhigh), if_neg (by simp; omega), Line.entryAt_of_first hst hadr hfirst]
      simp only [Table.used_eq_some.2 hst, Line.stationData_eq, hadr]
      rfl
    · subst hzero
      rw [if_neg (by decide), if_pos (by rfl), Line.summary, List.countP_eq_length_filter, List.countP_eq_length_filter]
      rfl

end Sys2Proof.Machine
end

section
/-! PROOFS. Stations removed (04). -/

namespace Sys2Proof.Machine

/-! ### Transactions of commands that leave -/

/-- A transaction chosen and not begun for the command with a serial. -/
def Transaction.chosenFor (t : Transaction) (serial : Nat) : Bool :=
  t.phase == .chosen && (match t.job with | .command n _ => n == serial | .poll => false)

theorem Line.current_dropChosen (l : Line) (n : Nat) : (l.dropChosen n).current = l.current.filter fun t => !t.chosenFor n := by
  unfold dropChosen
  cases h : l.current with
  | none => exact h
  | some t =>
    rw [Option.filter_some]
    cases hc : t.chosenFor n with
    | true => exact congrArg Line.current (if_pos hc)
    | false => exact (congrArg Line.current (if_neg (Bool.eq_false_iff.1 hc))).trans h

/-- R59: commands that leave, one after the other: their outcomes are told, and what is chosen for one of them goes. -/
theorem State.endOnly_foldl (gone : List Command) (o : CommandOutcome) : ∀ s : State,
    gone.foldl (fun s c => { s with line := s.line.dropChosen c.serial }.tell (.outcome c o)) s =
      { s with
        line := { s.line with current := s.line.current.filter fun t => gone.all fun c => !t.chosenFor c.serial }
        told := s.told ++ gone.map fun c => .outcome c o } := by
  induction gone with
  | nil =>
    intro s
    have hkeep : (s.line.current.filter fun _ => true) = s.line.current := by cases s.line.current <;> rfl
    simp [hkeep]
  | cons c gone ih =>
    intro s
    rw [List.foldl_cons, ih, Line.dropChosen_eq, Line.current_dropChosen]
    simp [State.tell, Option.filter_filter]

theorem State.endOnly_eq (s : State) (p : Command → Bool) (o : CommandOutcome) :
    s.endOnly p o =
      { s with
        line := { s.line with
          queue := s.line.queue.filter fun c => !p c
          current := s.line.current.filter fun t => (s.line.queue.filter p).all fun c => !t.chosenFor c.serial }
        told := s.told ++ (s.line.queue.filter p).map fun c => .outcome c o } := by
  rw [endOnly, endOnly_foldl]

/-- R54: what becomes of the transaction when the station of an object is removed. -/
def Transaction.voided (t : Transaction) (c : StationClass) (object : Nat) : Option Transaction :=
  if t.isFor c object then (if t.phase == .chosen then none else some { t with void := true }) else some t

theorem Line.voidTransaction_eq (l : Line) (c : StationClass) (object : Nat) :
    l.voidTransaction c object = { l with current := l.current.bind fun t => t.voided c object } := by
  obtain ⟨_, _, _, _, _, _, _, _, _, _, _, _, current, _⟩ := l
  cases current with
  | none => rfl
  | some t =>
    simp only [voidTransaction, Option.bind_some, Transaction.voided]
    split <;> rfl

/-! ### The owner of the object -/

/-- R121: the record of a stage that takes a state. -/
def Stage.entering (x : Stage) (q : StageState) : Stage := { x with state := q, lossEpisode := x.lossEpisode && q.isFed }

/-- R121, R137: a stage of the table takes a state. -/
theorem State.enterStage_of_stage {s : State} {k : Nat} {x : Stage} (h : s.stage k = some x) (q : StageState) :
    s.enterStage k q =
      if x.state.value == q.value && x.activeInput == (x.entering q).activeInput then
        { s with stages := s.stages.set k (x.entering q) }
      else
        (if q.isFed then
            (x.entering q).activeSet.elim { s with stages := s.stages.set k (x.entering q) }
              ({ s with stages := s.stages.set k (x.entering q) } : State).becomeFeeding
          else { s with stages := s.stages.set k (x.entering q) }).postStage k x.state.value := by
  have hchange : (s.changeStage k fun x => { x with state := q, lossEpisode := x.lossEpisode && q.isFed }) =
      { s with stages := s.stages.set k (x.entering q) } := changeStage_of_stage h _
  have hnew : ({ s with stages := s.stages.set k (x.entering q) } : State).stage k = some (x.entering q) :=
    Table.get_set_self _ _ h
  simp only [enterStage, h, hchange, hnew]
  rfl

theorem State.postStage_of_stage {s : State} {k : Nat} {x : Stage} (h : s.stage k = some x) (left : Nat) :
    s.postStage k left =
      s.post .stageState
        (be 1 k ++ be 1 x.state.value ++ be 1 left ++ be 1 (inputValue x.activeInput) ++ be 1 (setValue x.activeSet)) := by
  rw [postStage, h]

theorem State.enterStage_unfed {s : State} {k : Nat} {x : Stage} {q : StageState} (h : s.stage k = some x)
    (hq : q.isFed = false) :
    ∃ (v : State) (data : List Byte), v = { s with stages := s.stages.set k { x with state := q, lossEpisode := false } } ∧
      (s.enterStage k q = v ∨ s.enterStage k q = v.post .stageState data) := by
  have hentering : x.entering q = { x with state := q, lossEpisode := false } := by
    rw [Stage.entering, hq, Bool.and_false]
  have hnew : ({ s with stages := s.stages.set k (x.entering q) } : State).stage k = some (x.entering q) :=
    Table.get_set_self _ _ h
  rw [enterStage_of_stage h, if_neg (Bool.eq_false_iff.1 hq), postStage_of_stage hnew, hentering]
  split
  · exact ⟨_, [], rfl, Or.inl rfl⟩
  · exact ⟨_, _, rfl, Or.inr rfl⟩

/-- R122: the board's removal changes its stage, and may post. -/
theorem State.boardRemoved_of_stage {s : State} {k : Nat} {x : Stage} (h : s.stage k = some x) :
    ∃ (v : State) (data : List Byte),
      v = { s with
        stages := s.stages.set k { x with report := none, lost := false, state := .unknown, lossEpisode := false } } ∧
      (s.boardRemoved k = v ∨ s.boardRemoved k = v.post .stageState data) := by
  have hchange := changeStage_of_stage h fun x => { x with report := none, lost := false }
  have hnew : (s.changeStage k fun x => { x with report := none, lost := false }).stage k =
      some { x with report := none, lost := false } := by
    rw [hchange]; exact Table.get_set_self _ _ h
  obtain ⟨v, data, hv, hor⟩ := enterStage_unfed hnew (q := .unknown) rfl
  refine ⟨v, data, ?_, hor⟩
  rw [hv, hchange]
  simp

/-- R54, R69, R118, R122, R145: what the owner of a removed object leaves as it is. -/
structure State.GoneFrame (s u : State) (c : StationClass) (object : Nat) : Prop where
  line : u.line = { s.line with
    waiting := if c = .set then s.line.waiting.filter fun x => !x.isFor .set object else s.line.waiting }
  told : u.told = s.told
  sets : u.sets = if c = .set then s.sets.set object none else s.sets
  clock : u.clock = s.clock
  windows : u.windows = s.windows
  tally : u.tally = s.tally
  period : u.period = s.period
  planMem : u.planMem = s.planMem
  tallyMem : u.tallyMem = s.tallyMem

theorem State.objectGone_frame (s : State) (c : StationClass) (object : Nat) :
    s.GoneFrame (s.objectGone c object) c object := by
  cases c with
  | set => constructor <;> rfl
  | bowser => constructor <;> rfl
  | meter => constructor <;> rfl
  | board =>
    cases h : s.stage object with
    | none =>
      have hsame : s.objectGone .board object = s.changeStage object fun x => { x with report := none, lost := false } := by
        have : (s.changeStage object fun x => { x with report := none, lost := false }).stage object = none := by
          simpa [stage, changeStage] using h
        simp only [objectGone, boardRemoved, enterStage, this]
      rw [hsame]
      constructor <;> rfl
    | some x =>
      obtain ⟨v, data, rfl, hu | hu⟩ := boardRemoved_of_stage h
      · rw [objectGone, hu]
        constructor <;> rfl
      · rw [objectGone, hu]
        constructor <;> simp

theorem State.objectGone_bowser {s : State} {c : Nat} {x : Channel} (h : s.channel c = some x) :
    (s.objectGone .bowser c).channel c = some { x with report := none } := by
  rw [objectGone, changeChannel_of_channel h]
  exact Table.get_set_self _ _ h

theorem State.objectGone_board {s : State} {k : Nat} {x : Stage} (h : s.stage k = some x) :
    (s.objectGone .board k).stage k =
      some { x with report := none, lost := false, state := .unknown, lossEpisode := false } := by
  obtain ⟨v, data, rfl, hu | hu⟩ := boardRemoved_of_stage h
  · rw [objectGone, hu]
    exact Table.get_set_self _ _ h
  · rw [objectGone, hu, stage, post_stages]
    exact Table.get_set_self _ _ h

theorem State.objectGone_meter {s : State} {m c : Nat} {r : Circuit} (hm : c / 8 = m) (h : s.circuit c = some r) :
    (s.objectGone .meter m).circuit c = some { Circuit.reset with stage := r.stage } := by
  have hon : onStation m c = true := beq_iff_eq.2 hm
  rw [objectGone, circuit_unreadStation, h, Option.map_some, if_pos hon]
  rfl

/-! ### The removal -/

/-- R54: the station's commands have left the queue, its transaction is void or dropped, its entry is free and its waiting
commands are marked. -/
def State.withoutStation (s : State) (entry : Nat) (st : Station) : State :=
  { s with
    line := { s.line with
      stations := s.line.stations.set entry none
      queue := s.line.queue.filter fun c => !c.isFor st.cls st.object
      waiting := s.line.waiting.map fun c => if c.isFor st.cls st.object = true then { c with removed := true } else c
      current :=
        (s.line.current.filter fun t =>
          (s.line.queue.filter fun c => c.isFor st.cls st.object).all fun c => !t.chosenFor c.serial).bind fun t =>
            t.voided st.cls st.object }
    told := s.told ++ (s.line.queue.filter fun c => c.isFor st.cls st.object).map fun c => .outcome c .removed }

theorem Transaction.void_of_voided {x y : Transaction} {c : StationClass} {o : Nat} (h : y.voided c o = some x)
    (hc : x.cls = c) (ho : x.object = o) : x.void = true ∧ x.phase ≠ .chosen := by
  unfold voided at h
  split at h
  next =>
    split at h
    · exact absurd h (by simp)
    next hphase =>
      cases h
      exact ⟨rfl, by simpa using hphase⟩
  next hfor =>
    cases h
    simp [isFor, hc, ho] at hfor

theorem Transaction.chosenFor_of_phase {x : Transaction} (h : x.phase ≠ .chosen) (n : Nat) : x.chosenFor n = false := by
  simp [chosenFor, h]

theorem State.withoutStation_current_void {s : State} {e : Nat} {st : Station} {x : Transaction}
    (hx : s.line.current = some x) (hfor : x.cls = st.cls ∧ x.object = st.object) (hphase : x.phase ≠ .chosen) :
    (s.withoutStation e st).line.current = some { x with void := true } := by
  have hvoided : x.voided st.cls st.object = some { x with void := true } := by
    simp [Transaction.voided, Transaction.isFor, hfor.1, hfor.2, hphase]
  have hstays : ((s.line.queue.filter fun c => c.isFor st.cls st.object).all fun c => !x.chosenFor c.serial) = true := by
    simp [Transaction.chosenFor_of_phase hphase]
  simp only [withoutStation, hx, Option.filter_some, hstays, if_true, Option.bind_some, hvoided]

theorem State.withoutStation_current_dropped {s : State} {e : Nat} {st : Station} {x : Transaction}
    (hx : s.line.current = some x) (hfor : x.cls = st.cls ∧ x.object = st.object) (hphase : x.phase = .chosen) :
    (s.withoutStation e st).line.current = none := by
  have hvoided : x.voided st.cls st.object = none := by
    simp [Transaction.voided, Transaction.isFor, hfor.1, hfor.2, hphase]
  simp only [withoutStation, hx, Option.filter_some]
  split
  · exact hvoided
  · rfl

theorem State.withoutStation_current_other {s : State} {e : Nat} {st : Station} {x : Transaction}
    (hx : s.line.current = some x) (hother : x.cls ≠ st.cls ∨ x.object ≠ st.object)
    (hkeep : x.phase ≠ .chosen ∨
      ∀ n o, x.job = .command n o → ∀ c ∈ s.line.queue, c.isFor st.cls st.object = true → c.serial ≠ n) :
    (s.withoutStation e st).line.current = some x := by
  have hvoided : x.voided st.cls st.object = some x := by
    refine if_neg ?_
    simpa [Transaction.isFor, imp_iff_not_or] using hother
  have hstays : ((s.line.queue.filter fun c => c.isFor st.cls st.object).all fun c => !x.chosenFor c.serial) = true := by
    simp only [List.all_eq_true, List.mem_filter, and_imp, Bool.not_eq_true']
    intro c hc hfor
    rcases hkeep with hphase | hserial
    · exact Transaction.chosenFor_of_phase hphase _
    · cases hjob : x.job with
      | poll => simp [Transaction.chosenFor, hjob]
      | command n o => simp [Transaction.chosenFor, hjob, (hserial n o hjob c hc hfor).symm]
  simp only [withoutStation, hx, Option.filter_some, hstays, if_true, Option.bind_some, hvoided]

theorem State.removeStation_eq (s : State) (entry : Nat) (st : Station) :
    s.removeStation entry st = (s.withoutStation entry st).admitWaiting.objectGone st.cls st.object := by
  rw [removeStation, endOnly_eq]
  simp only [Line.voidTransaction_eq, Line.markRemoved]
  rfl

theorem State.objectInUse_iff (s : State) (st : Station) :
    s.objectInUse st = true ↔
      (st.cls = .set ∧ ((∃ r l, s.set st.object = some r ∧ r.lease = some l) ∨
          ∃ k ∈ s.stages.cells, k.inputA = some st.object ∨ k.inputB = some st.object)) ∨
        (st.cls = .bowser ∧ ∃ x, s.channel st.object = some x ∧ x.state ≠ .idle) ∨
        (st.cls = .board ∧ ∃ x q, s.stage st.object = some x ∧ x.state = .changing q) := by
  cases hc : st.cls with
  | set =>
    simp only [objectInUse, hc, Bool.or_eq_true, anyStage, List.any_eq_true, Stage.names, beq_iff_eq, true_and,
      reduceCtorEq, false_and, or_false, lease, Option.isSome_iff_exists, Option.bind_eq_some_iff]
    exact or_congr_left ⟨fun ⟨l, r, hr, hl⟩ => ⟨r, l, hr, hl⟩, fun ⟨r, l, hr, hl⟩ => ⟨l, r, hr, hl⟩⟩
  | bowser =>
    cases h : s.channel st.object with
    | none => simp [objectInUse, hc, h]
    | some x => cases hx : x.state <;> simp [objectInUse, hc, h, Channel.isIdle, hx]
  | board =>
    cases h : s.stage st.object with
    | none => simp [objectInUse, hc, h]
    | some x => simp [objectInUse, hc, h, Stage.isChanging_iff]
  | meter => simp [objectInUse, hc]

theorem exec_removeStation_offered {s : State} {tag : Byte} {a : Nat} (ha : a < 256)
    (h : Offered s .yard 0x21 tag (be 1 a)) :
    exec (.removeStation .yard) s = .next (deliver .yard (finished (ownRemoveStation [a] (s.judged .yard)))).transmit :=
  exec_of_fields (row := .removeStation) (owner := finishing ownRemoveStation) rfl h rfl [(1, a)] rfl (by simp [ha])
    (by simp [encodeFields])

/-- Settles O20: the line without the station, the waiting list examined, then the owner of the object. -/
theorem removeStationFreesTheEntry : Obligations.RemoveStationFreesTheEntry := by
  intro s tag a ha h t
  have hexec := exec_removeStation_offered ha h
  simp only [ownRemoveStation, arg, Nat.sub_self, List.getD_cons_zero, State.judged_line] at hexec
  refine ⟨fun hno => ?_, fun e st hlow hhigh hst hadr hfirst => ?_⟩
  · rw [hexec]
    split
    · rfl
    next hin =>
      have habsent : ∀ st, some st ∈ s.line.stations.cells → st.address ≠ a := by
        rcases hno with h0 | h62 | habsent
        · exact absurd (Or.inl h0) hin
        · exact absurd (Or.inr h62) hin
        · exact habsent
      rw [Line.entryAt_of_none habsent]
      rfl
  · intro inUse
    have hstate : (s.judged .yard).objectInUse st = s.objectInUse st := rfl
    rw [if_neg (by omega), Line.entryAt_of_first hst hadr hfirst] at hexec
    simp only [Table.used_eq_some.2 hst, hstate] at hexec
    refine ⟨fun huse => ?_, fun hfree => ?_⟩
    · rw [hexec, if_pos ((s.objectInUse_iff st).2 huse)]
      rfl
    · rw [if_neg (mt (s.objectInUse_iff st).1 hfree)] at hexec
      have hframe := State.objectGone_frame (t.withoutStation e st).admitWaiting st.cls st.object
      have hadmit := (t.withoutStation e st).admitWaiting_admits
      have hremove := t.removeStation_eq e st
      obtain ⟨l, told, hw, hstations, -, hcurrent⟩ := hadmit.frame
      have hline : (t.removeStation e st).line.current = (t.withoutStation e st).line.current := by
        rw [hremove, hframe.line, ← hcurrent, hw]
      refine ⟨t.removeStation e st, hexec, ?_, ⟨t.withoutStation e st, _, hadmit, rfl, rfl, rfl, rfl, ?_, ?_, ?_⟩,
        fun x hx hcls hobj => ?_, fun hnone => ?_, fun x hx => ⟨fun hcls hobj => ⟨fun hphase => ?_, fun hphase => ?_⟩,
          fun hother hkeep => ?_⟩, ?_, fun hc x hx => ?_, fun hc x hx => ?_, fun hc c r hm hr => ?_, ?_, ?_, ?_, ?_, ?_, ?_⟩
      · rw [hremove, hframe.line, hw]
        exact hstations
      · rw [hremove, hframe.line]
      · rw [hremove, hframe.line]
      · rw [hremove, hframe.told]
      · obtain ⟨y, -, hy⟩ := Option.bind_eq_some_iff.1 (hline.symm.trans hx)
        exact Transaction.void_of_voided hy hcls hobj
      · rw [hline]
        simp [State.withoutStation, t, hnone]
      · rw [hline]
        exact State.withoutStation_current_void hx ⟨hcls, hobj⟩ hphase
      · rw [hline]
        exact State.withoutStation_current_dropped hx ⟨hcls, hobj⟩ hphase
      · rw [hline]
        exact State.withoutStation_current_other hx hother hkeep
      · rw [hremove, hframe.sets, hw]
        rfl
      · rw [hremove, hc, hw]
        exact State.objectGone_bowser hx
      · rw [hremove, hc, hw]
        exact State.objectGone_board hx
      · rw [hremove, hc, hw]
        exact State.objectGone_meter hm hr
      · rw [hremove, hframe.clock, hw]
        rfl
      · rw [hremove, hframe.windows, hw]
        rfl
      · rw [hremove, hframe.tally, hw]
        rfl
      · rw [hremove, hframe.period, hw]
        rfl
      · rw [hremove, hframe.planMem, hw]
        rfl
      · rw [hremove, hframe.tallyMem, hw]
        rfl

end Sys2Proof.Machine
end

section
/-! PROOFS. The command queue, the choice of the next transaction, and the jammed line (04). -/

namespace Sys2Proof.Machine

/-! ### Commands offered and recalled -/

theorem Line.hasRoom_iff (l : Line) (r : Rank) :
    l.hasRoom r = true ↔
      l.queue.length < 8 ∧ (r = .safety ∨ (l.queue.filter fun c => c.rank != .safety).length < 6) := by
  simp only [hasRoom, Bool.and_eq_true, decide_eq_true_eq, Bool.or_eq_true, beq_iff_eq]
  exact Iff.rfl

theorem State.place_of_absent {s : State} {c : Command} (h : s.line.station c.order.cls c.object = none) :
    s.place c = s.tell (.outcome c .removed) := by
  simp only [place, h, ite_self]

theorem State.place_of_lost {s : State} {c : Command} {st : Station} (hr : c.removed = false)
    (h : s.line.station c.order.cls c.object = some st) (hl : st.state = .lost) :
    s.place c = s.tell (.outcome c .noAnswer) := by
  simp [place, h, hr, hl]

theorem State.place_of_present {s : State} {c : Command} {st : Station} (hr : c.removed = false)
    (h : s.line.station c.order.cls c.object = some st) (hl : st.state ≠ .lost) :
    s.place c = { s with line := { s.line with queue := s.line.queue ++ [c] } } := by
  simp [place, h, hr, hl]

/-- R57: an offer takes the next serial; it is placed where it ends at once or has room. -/
theorem State.offer_eq (s : State) (o : Order) (object : Nat) (r : Rank) :
    s.offer o object r =
      if ((s.line.station o.cls object).elim true fun st => st.state == .lost) || s.line.hasRoom r then
        ({ s with line := { s.line with nextSerial := s.line.nextSerial + 1 } } : State).place
          ⟨s.line.nextSerial, o, object, r, 0, false, false⟩
      else
        { s with
          line := { s.line with
            nextSerial := s.line.nextSerial + 1
            waiting := s.line.waiting ++ [⟨s.line.nextSerial, o, object, r, 0, false, false⟩] } } := rfl

theorem Line.waits_iff (l : Line) (n : Nat) : l.waits n = true ↔ ∃ c ∈ l.waiting, c.serial = n := by
  simp [waits]

theorem Transaction.chosenFor_iff (t : Transaction) (n : Nat) :
    t.chosenFor n = true ↔ t.phase = .chosen ∧ ∃ o, t.job = .command n o := by
  cases h : t.job with
  | poll => simp [chosenFor, h]
  | command m o => simp [chosenFor, h]

/-- Settles O21: each way an offer or a recall can go. -/
theorem commandsAreOffered : Obligations.CommandsAreOffered := by
  refine ⟨Line.hasRoom_iff, fun l r => ?_, ?_, State.admitWaiting_admits, fun s n hw => ?_, ?_, fun s n hw hq => ?_⟩
  · rw [Line.consoleRoom, Bool.and_eq_true, Bool.not_eq_true', List.any_eq_false]
    refine and_congr_right fun _ => forall₂_congr fun c _ => ?_
    rw [beq_iff_eq, Bool.beq_eq_decide_eq, Bool.beq_eq_decide_eq, decide_eq_decide]
  · intro s o object r c u
    refine ⟨fun hno => ?_, fun st hst => ⟨fun hl => ?_, fun hl hroom => ?_, fun hl hroom => ?_⟩⟩
    · refine (s.offer_eq o object r).trans ((if_pos ?_).trans (State.place_of_absent hno))
      rw [hno]
      rfl
    · refine (s.offer_eq o object r).trans ((if_pos ?_).trans (State.place_of_lost rfl hst hl))
      rw [hst, Option.elim_some, hl]
      rfl
    · refine (s.offer_eq o object r).trans ((if_pos ?_).trans (State.place_of_present rfl hst hl))
      rw [hroom, Bool.or_true]
    · refine (s.offer_eq o object r).trans (if_neg ?_)
      rw [hst, Option.elim_some, hroom, Bool.or_false, beq_iff_eq]
      exact hl
  · rw [State.recall, if_pos ((Line.waits_iff _ _).2 hw)]
  · intro s n c hw hq
    have hwaits : s.line.waits n = false := by
      rw [Bool.eq_false_iff, Ne, Line.waits_iff]
      exact fun ⟨x, hx, he⟩ => hw x hx he
    refine ⟨fun hc => ?_, fun hc => ⟨Line.dropChosen { s.line with queue := s.line.queue.filter fun x => x.serial != n } n,
      Line.dropChosen_eq _ _, fun ⟨t, o, ht, hphase, hjob⟩ => ?_, fun hother => ?_, ?_⟩⟩
    · simp [State.recall, Line.uncommitted, hwaits, hq, hc]
    · rw [Line.current_dropChosen]
      simp only [ht, Option.filter_some, (t.chosenFor_iff n).2 ⟨hphase, o, hjob⟩]
      rfl
    · rw [Line.current_dropChosen]
      dsimp only
      cases ht : s.line.current with
      | none => rfl
      | some t =>
        have hno : t.chosenFor n = false := by
          rw [Bool.eq_false_iff, Ne, Transaction.chosenFor_iff]
          exact fun ⟨hphase, o, hjob⟩ => hother t o ht hphase hjob
        rw [Option.filter_some, hno]
        rfl
    · have hrecall : s.recall n = State.admitWaiting { s with
          line := Line.dropChosen { s.line with queue := s.line.queue.filter fun x => x.serial != n } n } := by
        simp [State.recall, Line.uncommitted, hwaits, hq, hc]
      rw [hrecall]
      exact State.admitWaiting_admits _
  · have hwaits : s.line.waits n = false := by
      rw [Bool.eq_false_iff, Ne, Line.waits_iff]
      exact fun ⟨x, hx, he⟩ => hw x hx he
    simp [State.recall, Line.uncommitted, hwaits, hq]

/-! ### The command taken -/

theorem find?_rank_eq_some {q : List Command} {r : Rank} {c : Command} :
    q.find? (fun x => x.rank == r) = some c ↔
      c.rank = r ∧ ∃ before after, q = before ++ c :: after ∧ ∀ x ∈ before, x.rank ≠ r := by
  simp [List.find?_eq_some_iff_append]

theorem find?_rank_eq_none {q : List Command} {r : Rank} :
    q.find? (fun x => x.rank == r) = none ↔ ∀ x ∈ q, x.rank ≠ r := by
  simp

/-- R60: the oldest command of the highest class. -/
theorem Line.pick_eq_some (l : Line) (c : Command) :
    l.pick = some c ↔ ∃ before after, l.queue = before ++ c :: after ∧ (∀ x ∈ before, x.rank ≠ c.rank) ∧
      ∀ x ∈ l.queue, (c.rank = .sequence → x.rank ≠ .safety) ∧ (c.rank = .routine → x.rank = .routine) := by
  simp only [pick, Option.or_eq_some_iff, find?_rank_eq_some, find?_rank_eq_none]
  constructor
  · rintro (⟨hr, before, after, hq, hb⟩ | ⟨hs, ⟨hr, before, after, hq, hb⟩ | ⟨hn, hr, before, after, hq, hb⟩⟩)
    · exact ⟨before, after, hq, by rwa [hr], by simp [hr]⟩
    · exact ⟨before, after, hq, by rwa [hr], by simpa [hr] using hs⟩
    · refine ⟨before, after, hq, by rwa [hr], fun x hx => ⟨by simp [hr], fun _ => ?_⟩⟩
      cases hrank : x.rank with
      | safety => exact absurd hrank (hs x hx)
      | sequence => exact absurd hrank (hn x hx)
      | routine => rfl
  · rintro ⟨before, after, hq, hb, hall⟩
    cases hr : c.rank with
    | safety => exact Or.inl ⟨rfl, before, after, hq, by rwa [hr] at hb⟩
    | sequence => exact Or.inr ⟨fun x hx => (hall x hx).1 hr, Or.inl ⟨rfl, before, after, hq, by rwa [hr] at hb⟩⟩
    | routine =>
      have hroutine (x : Command) (hx : x ∈ l.queue) : x.rank = .routine := (hall x hx).2 hr
      exact Or.inr ⟨fun x hx => by simp [hroutine x hx], Or.inr ⟨fun x hx => by simp [hroutine x hx], rfl, before, after,
        hq, by rwa [hr] at hb⟩⟩

theorem Line.chooseCommand_of_pick {l : Line} {c : Command} {st : Station} (hp : l.pick = some c)
    (hst : l.station c.order.cls c.object = some st) :
    l.chooseCommand =
      some { l with current := some ⟨.command c.serial c.order, st.cls, st.object, st.address, .chosen, false⟩ } := by
  simp [chooseCommand, hp, hst]

theorem Line.chooseCommand_of_empty {l : Line} (h : l.queue = []) : l.chooseCommand = none := by
  simp [chooseCommand, pick, h]

/-! ### The station polled -/

theorem Line.nextEligible_eq_some {l : Line} {round e : Nat} (he : l.eligible round e = true) :
    ∀ (n entry : Nat), entry ≤ e → e < entry + n → (∀ j, entry ≤ j → j < e → l.eligible round j = false) →
      l.nextEligible round entry n = some e
  | 0, entry, hle, hlt, _ => by omega
  | n + 1, entry, hle, hlt, hlow => by
    rw [nextEligible]
    rcases hle.eq_or_lt with rfl | hlt'
    · rw [if_pos he]
    · rw [if_neg (Bool.eq_false_iff.1 (hlow entry le_rfl hlt'))]
      exact nextEligible_eq_some he n (entry + 1) hlt' (by omega) fun j hj => hlow j (by omega)

theorem Line.nextEligible_eq_none {l : Line} {round : Nat} :
    ∀ (n entry : Nat), (∀ j, entry ≤ j → l.eligible round j = false) → l.nextEligible round entry n = none
  | 0, _, _ => rfl
  | n + 1, entry, h => by
    rw [nextEligible, if_neg (Bool.eq_false_iff.1 (h entry le_rfl))]
    exact nextEligible_eq_none n (entry + 1) fun j hj => h j (by omega)

theorem Line.nextEligible_congr {l m : Line} (h : l.stations = m.stations) (round : Nat) :
    ∀ (n entry : Nat), l.nextEligible round entry n = m.nextEligible round entry n
  | 0, _ => rfl
  | n + 1, entry => by rw [nextEligible, nextEligible, nextEligible_congr h, eligible, eligible, h]

theorem Line.searchPoll_congr {l m : Line} (h : l.stations = m.stations) :
    ∀ (n round pointer : Nat), l.searchPoll round pointer n = m.searchPoll round pointer n
  | 0, _, _ => rfl
  | n + 1, round, pointer => by
    simp only [searchPoll, nextEligible_congr h, searchPoll_congr h n]

theorem Line.searchPoll_of_some {l : Line} {round pointer e : Nat} (n : Nat)
    (h : l.nextEligible round pointer (40 - pointer) = some e) : l.searchPoll round pointer (n + 1) = some (e, round) := by
  simp only [searchPoll, h]

theorem Line.searchPoll_of_none {l : Line} {round pointer : Nat} (n : Nat)
    (h : l.nextEligible round pointer (40 - pointer) = none) :
    l.searchPoll round pointer (n + 1) = l.searchPoll ((round + 1) % 8) 0 n := by
  simp only [searchPoll, h]

theorem Line.searchPoll_eq_none {l : Line} : ∀ (n : Nat) {round : Nat}, round < 8 →
    (l.searchPoll round 0 n = none ↔ ∀ k < n, l.nextEligible ((round + k) % 8) 0 40 = none)
  | 0, _, _ => by simp [searchPoll]
  | n + 1, round, hr => by
    have hmod (k : Nat) : ((round + 1) % 8 + k) % 8 = (round + (k + 1)) % 8 := by omega
    have hsame : (round + 0) % 8 = round := Nat.mod_eq_of_lt hr
    cases h : l.nextEligible round 0 40 with
    | some e =>
      rw [searchPoll_of_some n h]
      refine iff_of_false (by simp) fun hall => ?_
      have := hall 0 (by omega)
      rw [hsame, h] at this
      simp at this
    | none =>
      rw [searchPoll_of_none n h, searchPoll_eq_none n (Nat.mod_lt _ (by decide))]
      constructor
      · intro hall k hk
        cases k with
        | zero => rw [hsame, h]
        | succ k => rw [← hmod]; exact hall k (by omega)
      · intro hall k hk
        rw [hmod]
        exact hall (k + 1) (by omega)

theorem Line.searchPoll_more {l : Line} {x : Nat × Nat} : ∀ (n : Nat) {round pointer : Nat},
    l.searchPoll round pointer n = some x → l.searchPoll round pointer (n + 1) = some x
  | 0, _, _, h => by simp [searchPoll] at h
  | n + 1, round, pointer, h => by
    cases hn : l.nextEligible round pointer (40 - pointer) with
    | some e => rwa [searchPoll_of_some n hn, ← searchPoll_of_some (n + 1) hn] at h
    | none =>
      rw [searchPoll_of_none n hn] at h
      rw [searchPoll_of_none (n + 1) hn]
      exact searchPoll_more n h

/-- R61: after the eight rounds the same stations are eligible again. -/
theorem Line.searchPoll_nine (l : Line) {round : Nat} (hr : round < 8) :
    l.searchPoll round 0 9 = l.searchPoll round 0 8 := by
  cases h : l.searchPoll round 0 8 with
  | some x => exact searchPoll_more 8 h
  | none =>
    rw [searchPoll_eq_none 8 hr] at h
    rw [searchPoll_eq_none 9 hr]
    intro k hk
    rcases (Nat.lt_succ_iff.1 hk).eq_or_lt with rfl | hlt
    · have h0 := h 0 (by decide)
      rwa [Nat.add_mod_right]
    · exact h k hlt

theorem Line.eligible_iff (l : Line) (round e : Nat) :
    l.eligible round e = true ↔ ∃ st, l.stations.get e = some (some st) ∧ (st.state ≠ .lost ∨ round = 7) := by
  cases h : l.stations.used e with
  | none =>
    have hno (st : Station) : l.stations.get e ≠ some (some st) := fun hg => by
      rw [Table.used_eq_some.2 hg] at h
      simp at h
    simp [eligible, h, hno]
  | some st => simp [eligible, h, Table.used_eq_some.1 h, Config.lostRound]

theorem Line.not_eligible {l : Line} {round j : Nat}
    (h : ∀ x, l.stations.get j = some (some x) → x.state = .lost ∧ round ≠ 7) : l.eligible round j = false := by
  rw [Bool.eq_false_iff, Ne, eligible_iff]
  rintro ⟨st, hst, hor⟩
  obtain ⟨hlost, hround⟩ := h st hst
  exact hor.elim (fun hne => hne hlost) hround

theorem Line.choosePoll_of_search {l : Line} {e round : Nat} {st : Station}
    (h : l.searchPoll l.round l.pointer 9 = some (e, round)) (hst : l.stations.used e = some st) :
    l.choosePoll =
      some { l.movePointer e round with current := some ⟨.poll, st.cls, st.object, st.address, .chosen, false⟩ } := by
  simp only [choosePoll, h, hst, Option.map_some]

/-- R61: the first eligible station from the pointer on is polled. -/
theorem Line.choosePoll_of_first {l : Line} {e : Nat} {st : Station} (hle : l.pointer ≤ e)
    (hst : l.stations.get e = some (some st)) (hok : st.state ≠ .lost ∨ l.round = 7)
    (hlow : ∀ j x, l.pointer ≤ j → j < e → l.stations.get j = some (some x) → x.state = .lost ∧ l.round ≠ 7) :
    l.choosePoll =
      some { l with
        pointer := if e = 39 then 0 else e + 1
        round := if e = 39 then (l.round + 1) % 8 else l.round
        current := some ⟨.poll, st.cls, st.object, st.address, .chosen, false⟩ } := by
  have he : e < 40 := l.stations.lt_of_get hst
  have hnext := nextEligible_eq_some ((l.eligible_iff l.round e).2 ⟨st, hst, hok⟩) (40 - l.pointer) l.pointer hle (by omega)
    fun j hj hlt => not_eligible fun x hx => hlow j x hj hlt hx
  rw [choosePoll_of_search (searchPoll_of_some 8 hnext) (Table.used_eq_some.2 hst), movePointer]
  by_cases h39 : e = 39
  · rw [if_neg (by omega), if_pos h39, if_pos h39]
  · rw [if_pos (by omega), if_neg h39, if_neg h39]

/-- R61: with no eligible station left in the round, the next round is searched. -/
theorem Line.choosePoll_of_round {l : Line}
    (h : ∀ j x, l.pointer ≤ j → l.stations.get j = some (some x) → x.state = .lost ∧ l.round ≠ 7) :
    l.choosePoll = ({ l with pointer := 0, round := (l.round + 1) % 8 } : Line).choosePoll := by
  have hnone := nextEligible_eq_none (l := l) (40 - l.pointer) l.pointer
    fun j hj => not_eligible fun x hx => h j x hj hx
  have hsearch : l.searchPoll l.round l.pointer 9 =
      ({ l with pointer := 0, round := (l.round + 1) % 8 } : Line).searchPoll ((l.round + 1) % 8) 0 9 := by
    rw [searchPoll_of_none 8 hnone, ← l.searchPoll_nine (Nat.mod_lt _ (by decide))]
    exact searchPoll_congr rfl 9 _ _
  simp only [choosePoll, hsearch, movePointer]

theorem Line.choosePoll_of_empty {l : Line} (h : ∀ e ∈ l.stations.cells, e = none) : l.choosePoll = none := by
  have hno (round j : Nat) : l.eligible round j = false := not_eligible fun x hx => by
    have := h _ (List.mem_of_getElem? hx)
    simp at this
  have hnone : ∀ (n round pointer : Nat), l.searchPoll round pointer n = none := by
    intro n
    induction n with
    | zero => exact fun _ _ => rfl
    | succ n ih =>
      intro round pointer
      rw [searchPoll_of_none n (nextEligible_eq_none _ _ fun j _ => hno round j), ih]
  simp only [choosePoll, hnone]

/-! ### The choice -/

theorem Line.beginChosen_of_current {l : Line} {t : Transaction} (h : l.current = some t) :
    l.beginChosen = if t.phase == .chosen && !l.busy then l.begin t else l := by
  rw [beginChosen, h]

theorem State.arbitrate_of_choice {s : State} (hready : s.loader.ready = true) (hjam : s.line.jammed = false)
    (hidle : s.line.current = none) : s.arbitrate = { s with line := s.line.choose.beginChosen } := by
  simp [arbitrate, hready, hjam, hidle]

theorem State.arbitrate_of_no_choice {s : State}
    (h : s.loader.ready = false ∨ s.line.jammed = true ∨ s.line.current ≠ none) :
    s.arbitrate = { s with line := s.line.beginChosen } := by
  refine if_neg ?_
  simp only [Bool.and_eq_true, Bool.not_eq_true', Option.isNone_iff_eq_none, not_and_or, Bool.not_eq_true,
    Bool.not_eq_false]
  tauto

/-- Settles O22: what the blocks have told each other one message at a time; the choice by its steps; the searches by their
first hit. -/
theorem lineChoosesListensAndGoesQuiet : Obligations.LineChoosesListensAndGoesQuiet := by
  refine ⟨⟨fun s h => ?_, fun _ => rfl, fun _ => rfl, fun n s h => State.settle_done n h, ?_,
    fun s h => State.arbitrate_of_no_choice h, fun s hready hjam hidle => ⟨fun c st hcmd hp hst => ?_, fun l hpoll hl => ?_,
      fun hq hpoll => ?_⟩, Line.pick_eq_some, fun l e st hle hst hok hlow => Line.choosePoll_of_first hle hst hok hlow,
    fun l _ _ h => Line.choosePoll_of_round h, fun l h => Line.choosePoll_of_empty h, fun l t ht => ⟨fun h => ?_,
      fun hphase hbusy => ⟨fun hjob => ?_, fun n o hjob => ?_⟩⟩⟩, fun _ => rfl, fun s t ht hphase => ?_, fun s h => ?_,
    fun t => ?_⟩
  · rw [State.finish, State.settle_done _ h]
  · intro n s m rest h u
    have hstep : State.settle (n + 1) s = State.settle n (State.heed u m) := by simp only [State.settle, h, u]
    rw [hstep]
    cases m with
    | outcome c o => rfl
    | _ => rfl
  · have hchoose : s.line.choose =
        { s.line with current := some ⟨.command c.serial c.order, st.cls, st.object, st.address, .chosen, false⟩ } := by
      rw [Line.choose, Line.chooseCommand_of_pick hp hst, Config.pollEvery]
      rcases hcmd with hlt | hnone
      · rw [if_pos hlt]; rfl
      · rw [hnone]; split <;> rfl
    rw [State.arbitrate_of_choice hready hjam hidle, hchoose]
  · have hchoose : s.line.choose = l := by
      rw [Line.choose, hl, Config.pollEvery]
      rcases hpoll with hge | hq
      · rw [if_neg (Nat.not_lt.2 hge)]; rfl
      · rw [Line.chooseCommand_of_empty hq]; split <;> rfl
    rw [State.arbitrate_of_choice hready hjam hidle, hchoose]
  · have hchoose : s.line.choose = s.line := by
      rw [Line.choose, hpoll, Line.chooseCommand_of_empty hq]; split <;> rfl
    have hbegin : s.line.beginChosen = s.line := by rw [Line.beginChosen, hidle]
    rw [State.arbitrate_of_choice hready hjam hidle, hchoose, hbegin]
  · rw [Line.beginChosen_of_current ht, if_neg]
    rcases h with h | h <;> simp [h]
  · rw [Line.beginChosen_of_current ht, if_pos (by simp [hphase, hbusy]), Line.begin]
    simp only [hjob]
  · rw [Line.beginChosen_of_current ht, if_pos (by simp [hphase, hbusy]), Line.begin]
    simp only [hjob, beq_iff_eq]
    rfl
  · have hexec : exec .closingMarkSent s = .next (closingMarkSent s).transmit := rfl
    rw [hexec, closingMarkSent, ht]
    simp [hphase]
  · have hexec : exec .closingMarkSent s = .next (closingMarkSent s).transmit := rfl
    rw [hexec, closingMarkSent]
    cases ht : s.line.current with
    | none => rfl
    | some t => simp [h t ht]
  · rw [Transaction.bytes]
    congr 1
    cases t.job with
    | poll => rfl
    | command n o => cases o with
      | openInput i => cases i <;> rfl
      | closeInput i => cases i <;> rfl
      | _ => rfl

/-! ### The jammed line -/

theorem Line.onLine_of_chosen {l : Line} (h : ∀ t, l.current = some t → t.phase = .chosen) : l.onLine = false := by
  cases ht : l.current with
  | none => simp [onLine, ht]
  | some t => simp [onLine, ht, h t ht]

theorem Line.sending_eq_false {l : Line} (h : ∀ t, l.current = some t → t.phase ≠ .sending) : l.sending = false := by
  cases ht : l.current with
  | none => simp [sending, ht]
  | some t => simp [sending, ht, h t ht]

/-- Settles O25: the four events of a line outside a transaction. -/
theorem jammedLineAndItsEnd : Obligations.JammedLineAndItsEnd := by
  refine ⟨fun s hjam hsend => ?_, fun s hjam => ?_, fun s raw destination source kind payload hchosen hend => ?_,
    fun s ms h hchosen hend => ?_⟩
  · have hexec : exec .lineJammed s = .next (lineJammed s).transmit := rfl
    rw [hexec, lineJammed, hjam, Line.sending_eq_false hsend]
    rfl
  · have hexec : exec .lineClear s = .next (lineClear s).finish.transmit := rfl
    rw [hexec, lineClear, if_pos hjam]
  · have hexec : exec (.frameOutsideTransaction raw) s = .next (frameOutside s raw).transmit := rfl
    rw [hexec, frameOutside, Line.onLine_of_chosen hchosen, hend]
    rfl
  · have hexec : exec (.badFrameOutsideTransaction ms h) s = .next (badFrameOutside s ms h).transmit := rfl
    rw [hexec, badFrameOutside, Line.onLine_of_chosen hchosen]
    rcases hend with hend | hend | hend <;> rw [hend] <;> rfl

end Sys2Proof.Machine
end

section
/-! PROOFS. Accepted replies (04), and what the owners do with the reports they carry (05, 06, 07). -/

namespace Sys2Proof.Machine

/-! ### A channel or a stage replaced -/

/-- The record of a channel becomes another. -/
def State.withChannel (s : State) (c : Nat) (y : Channel) : State :=
  { s with deliveries := { s.deliveries with channels := s.deliveries.channels.set c y } }

theorem State.channel_withChannel {s : State} {c : Nat} {x : Channel} (h : s.channel c = some x) (y : Channel) :
    (s.withChannel c y).channel c = some y := Table.get_set_self _ _ h

theorem State.changeChannel_eq {s : State} {c : Nat} {x : Channel} (h : s.channel c = some x) (f : Channel → Channel) :
    s.changeChannel c f = s.withChannel c (f x) := changeChannel_of_channel h f

theorem State.setChannel_eq {s : State} {c : Nat} {x : Channel} (h : s.channel c = some x) (q : ChannelState) :
    s.setChannel c q = s.withChannel c { x with state := q } := changeChannel_of_channel h _

theorem State.changeDelivery_eq {s : State} {c : Nat} {x : Channel} (h : s.channel c = some x) (f : Delivery → Delivery) :
    s.changeDelivery c f = s.withChannel c { x with state := x.state.change f } := changeChannel_of_channel h _

@[simp] theorem State.changeChannel_withChannel (s : State) (c : Nat) (y : Channel) (f : Channel → Channel) :
    (s.withChannel c y).changeChannel c f = s.withChannel c (f y) := by
  simp [withChannel, changeChannel]

@[simp] theorem State.setChannel_withChannel (s : State) (c : Nat) (y : Channel) (q : ChannelState) :
    (s.withChannel c y).setChannel c q = s.withChannel c { y with state := q } := changeChannel_withChannel ..

@[simp] theorem State.changeDelivery_withChannel (s : State) (c : Nat) (y : Channel) (f : Delivery → Delivery) :
    (s.withChannel c y).changeDelivery c f = s.withChannel c { y with state := y.state.change f } :=
  changeChannel_withChannel ..

theorem State.withChannel_self {s : State} {c : Nat} {x : Channel} (h : s.channel c = some x) : s.withChannel c x = s := by
  rw [withChannel, Table.set_of_get _ h]

/-- The record of a stage becomes another. -/
def State.withStage (s : State) (k : Nat) (x : Stage) : State := { s with stages := s.stages.set k x }

theorem State.stage_withStage {s : State} {k : Nat} {x : Stage} (h : s.stage k = some x) (y : Stage) :
    (s.withStage k y).stage k = some y := Table.get_set_self _ _ h

theorem State.changeStage_eq {s : State} {k : Nat} {x : Stage} (h : s.stage k = some x) (f : Stage → Stage) :
    s.changeStage k f = s.withStage k (f x) := changeStage_of_stage h f

@[simp] theorem State.changeStage_withStage (s : State) (k : Nat) (x : Stage) (f : Stage → Stage) :
    (s.withStage k x).changeStage k f = s.withStage k (f x) := by
  simp [withStage, changeStage]

/-! ### Commands offered and recalled leave the deliveries -/

/-- R57, R59: placing a command changes the line and adds to what is told; nothing else. -/
theorem State.place_frame (s : State) (c : Command) : ∃ (l : Line) (m : List Told), s.place c = { s with line := l, told := m } := by
  cases hr : c.removed with
  | true => exact ⟨s.line, s.told ++ [.outcome c .removed], by simp [place, hr, tell]⟩
  | false =>
    cases hst : s.line.station c.order.cls c.object with
    | none => exact ⟨s.line, s.told ++ [.outcome c .removed], by simp [place, hst, tell]⟩
    | some st =>
      by_cases hl : st.state = .lost
      · exact ⟨s.line, s.told ++ [.outcome c .noAnswer], by rw [place_of_lost hr hst hl]; rfl⟩
      · exact ⟨_, s.told, place_of_present hr hst hl⟩

/-- R57, R59: an offer changes the line and adds to what is told; nothing else. -/
theorem State.offer_frame (s : State) (o : Order) (object : Nat) (r : Rank) :
    ∃ (l : Line) (m : List Told), s.offer o object r = { s with line := l, told := m } := by
  rw [offer_eq]
  split
  · obtain ⟨l, m, h⟩ := place_frame { s with line := { s.line with nextSerial := s.line.nextSerial + 1 } }
      ⟨s.line.nextSerial, o, object, r, 0, false, false⟩
    exact ⟨l, m, h⟩
  · exact ⟨_, s.told, rfl⟩

theorem State.foldl_recall_frame (cs : List Command) : ∀ s : State, ∃ (l : Line) (m : List Told),
    cs.foldl (fun s k => s.recall k.serial) s = { s with line := l, told := m } := by
  induction cs with
  | nil => exact fun s => ⟨s.line, s.told, rfl⟩
  | cons c cs ih =>
    intro s
    obtain ⟨l, m, h, -, -⟩ := s.recall_frame c.serial
    obtain ⟨l', m', h'⟩ := ih (s.recall c.serial)
    exact ⟨l', m', h'.trans (by rw [h])⟩

/-! ### Stopping the pump -/

/-- R102: stopping the pump changes the delivery of the channel at most, the line and what is told. -/
theorem State.stopPump_frame {s : State} {c : Nat} {y : Channel} (h : s.channel c = some y) :
    ∃ (f : Delivery → Delivery) (l : Line) (m : List Told),
      s.stopPump c = { s.withChannel c { y with state := y.state.change f } with line := l, told := m } := by
  unfold stopPump
  split
  · obtain ⟨l, m, hf⟩ := foldl_recall_frame (s.line.queue.filter fun k => k.isPump .pumpRun c && !k.committed)
      (s.changeDelivery c fun d => { d with haltConfirmed := true })
    refine ⟨fun d => { d with haltConfirmed := true }, l, m, hf.trans ?_⟩
    rw [changeDelivery_eq h]
  · split
    · have hsame : y.state.change id = y.state := by cases y.state <;> rfl
      refine ⟨id, s.line, s.told, ?_⟩
      rw [hsame, withChannel_self h]
    · obtain ⟨l, m, hf⟩ := offer_frame (s.changeDelivery c fun d => { d with halt := some s.line.nextSerial }) .pumpHalt c
        .safety
      refine ⟨fun d => { d with halt := some s.line.nextSerial }, l, m, hf.trans ?_⟩
      rw [changeDelivery_eq h]

theorem Channel.open_change {y : Channel} {d : Delivery} (h : y.open_ = some d) (f : Delivery → Delivery) :
    ({ y with state := y.state.change f } : Channel).open_ = some (f d) := by
  cases hs : y.state <;> simp_all [open_, ChannelState.change]

theorem State.delivery_of_channel {s : State} {c : Nat} {y : Channel} (h : s.channel c = some y) : s.delivery c = y.open_ := by
  rw [delivery, h, Option.bind_some]

/-- R102: the delivery of a channel is still open when its pump has been stopped. -/
theorem State.stopThen_of_open {s : State} {c : Nat} {y : Channel} {d : Delivery} (h : s.channel c = some y)
    (ho : y.open_ = some d) (k : State → Delivery → State) :
    ∃ g, (s.stopPump c).delivery c = some g ∧ s.stopThen c k = k (s.stopPump c) g := by
  obtain ⟨f, l, m, hf⟩ := stopPump_frame h
  have hg : (s.stopPump c).delivery c = some (f d) := by
    rw [hf]
    exact (delivery_of_channel (channel_withChannel h _)).trans (Channel.open_change ho f)
  exact ⟨f d, hg, by simp only [stopThen, hg]⟩

/-! ### SET reports and the delivery to the set -/

theorem State.channelTo_of_none {s : State} {i : Nat}
    (h : ∀ j y d, s.channel j = some y → y.open_ = some d → d.set ≠ i) : s.channelTo i = none := by
  rw [channelTo, Table.find_eq_none]
  intro j y hy
  cases ho : y.open_ with
  | none => simp
  | some d => simpa using h j y d hy ho

theorem State.deliverySetReport_of_openTo {s : State} {i c : Nat} {y : Channel} {d : Delivery} (h : OpenTo s i c y d)
    (x : SetReport) (delta : Option Word32) :
    s.deliverySetReport i x delta =
      let v := s.withChannel c { y with state := y.state.change fun d => d.addEnergy delta }
      match y.state.change fun d => d.addEnergy delta with
      | .flowing d => v.judgeHigh c d x.level
      | .halted d .gaugeLost => (v.setChannel c (.halted d .highMark)).judgeResume c d
      | .halted d .highMark => v.judgeResume c d
      | .halted _ .hold => v
      | .armed _ => v
      | .settling _ _ => v
      | .idle => v
      | .heldLog _ _ => v := by
  simp only [deliverySetReport, channelTo_of_openTo h, changeDelivery_eq h.channel, channelState,
    channel_withChannel h.channel, Option.map_some]
  rcases y.state with _ | _ | _ | ⟨_, _ | _ | _⟩ | _ | _ <;> rfl

theorem Delivery.addEnergy_eq (d : Delivery) (delta : Option Word32) :
    d.addEnergy delta =
      { d with
        energy :=
          BitVec.ofNat 32 (min (d.energy.toNat + (match delta with | some n => n.toNat | none => 0)) 4294967295) } := by
  cases delta <;> rfl

theorem State.judgeResume_eq (s : State) (c : Nat) (d : Delivery) :
    s.judgeResume c d =
      if s.levelOf d.set ≤ (s.marksOf d.set).highClear ∧ d.haltConfirmed = true ∧ s.haltOutstanding c = false then
        (s.setChannel c (.flowing d)).runPump c
      else s := by
  rw [judgeResume]
  refine if_congr ?_ rfl rfl
  simp [and_assoc]

/-! ### BOWSER reports -/

theorem State.runOutstanding_eq_false {s : State} {c : Nat} :
    s.runOutstanding c = false ↔ ∀ k ∈ s.line.queue ++ s.line.waiting, k.isPump .pumpRun c = false := by
  simp [runOutstanding, Line.outstanding, or_imp, forall_and]

theorem State.judgeRunning_eq (s : State) (c : Nat) (x : BowserReport) :
    s.judgeRunning c x =
      if x.running = true ∧ ∀ k ∈ s.line.queue ++ s.line.waiting, k.isPump .pumpRun c = false then
        (s.changeDelivery c fun d => { d with haltConfirmed := false }).stopPump c
      else s := by
  rw [judgeRunning]
  refine if_congr ?_ rfl rfl
  rw [Bool.and_eq_true, Bool.not_eq_true', runOutstanding_eq_false]

theorem Delivery.reached_iff (d : Delivery) : d.reached = true ↔ d.ordered ≤ d.delivered.toNat := by
  rw [reached, decide_eq_true_eq]

theorem State.judgeFlow_of_short {s : State} {c : Nat} {d : Delivery} (h : ¬d.ordered ≤ d.delivered.toNat) :
    s.judgeFlow c d = s.setChannel c (.flowing d) := by
  rw [judgeFlow, if_neg (mt d.reached_iff.1 h)]

theorem State.judgeFlow_of_full {s : State} {c : Nat} {y : Channel} {d : Delivery} (hy : s.channel c = some y)
    (h : d.ordered ≤ d.delivered.toNat) :
    ∃ g, ((s.setChannel c (.flowing d)).stopPump c).delivery c = some g ∧
      s.judgeFlow c d = ((s.setChannel c (.flowing d)).stopPump c).setChannel c (.settling g 600) := by
  have hnew : (s.setChannel c (.flowing d)).channel c = some { y with state := .flowing d } := by
    rw [setChannel_eq hy]; exact channel_withChannel hy _
  obtain ⟨g, hg, hs⟩ := stopThen_of_open hnew rfl fun s d => s.settleChannel c d
  exact ⟨g, hg, by rw [judgeFlow, if_pos (d.reached_iff.2 h), hs]; rfl⟩

/-! ### BOARD reports -/

theorem State.context_of_changing {s : State} {k : Nat} {x : Stage} {c : Changeover} (h : s.stage k = some x)
    (hc : x.state = .changing c) : s.context k = some c := by
  rw [context, h, Option.bind_some, Stage.context, hc]

theorem State.context_of_not_changing {s : State} {k : Nat} {x : Stage} (h : s.stage k = some x)
    (hc : ∀ c, x.state ≠ .changing c) : s.context k = none := by
  rw [context, h, Option.bind_some, Stage.context]
  cases hx : x.state with
  | changing c => exact absurd hx (hc c)
  | _ => rfl

/-- R48, R62: the kind and the source of an accepted reply. -/
theorem Transaction.verdict_accepted {t : Transaction} {now : Stamp} {payload : List Byte} {r : Report}
    (h : reportOf t.cls now payload = some r) :
    t.verdict now (.good 0 (BitVec.ofNat 8 t.address) (match t.job with | .poll => 0x81 | .command _ _ => 0x82) payload) =
      .accepted r := by
  have hkind : (match t.job with | .poll => (0x81 : Byte) | .command _ _ => 0x82) = t.job.replyKind := by
    cases t.job <;> rfl
  rw [hkind]
  simp [verdict, h]

theorem State.replyAccepted_of_accepted {s : State} {t : Transaction} {raw : List Byte} {e : LineEnd} {r : Report}
    (ht : s.line.current = some t) (hphase : t.phase = .listening) (hend : endingOf (.bytes raw) = some e)
    (hv : t.verdict s.now e = .accepted r) : replyAccepted s raw = s.transactionAccepted t r := by
  have hlisten : s.line.listening = some t := by simp [Line.listening, ht, hphase]
  simp only [replyAccepted, hlisten, hend, hv]

theorem exec_replyAccepted (raw : List Byte) (s : State) :
    exec (.replyAccepted raw) s = .next (replyAccepted s raw).finish.transmit := rfl

/-- Settles O23: the reply by its verdict; what the owners do with each report by the state of the object. -/
theorem acceptedReplyEndsTheTransaction : Obligations.AcceptedReplyEndsTheTransaction := by
  refine ⟨?_, fun s i x => ?_, fun _ _ _ => rfl, fun s i x delta => ⟨fun h => ?_, ?_⟩, fun s c d => s.judgeResume_eq c d,
    ?_, ?_⟩
  · intro s t raw payload r ht hphase hend hr heard
    have haccepted := State.replyAccepted_of_accepted ht hphase hend (Transaction.verdict_accepted hr)
    refine ⟨fun hvoid => ?_, ?_⟩
    · rw [exec_replyAccepted, haccepted, State.transactionAccepted, hvoid]
      rfl
    · intro st hvoid hst answered back
      have hstation : heard.station t.cls t.object = some st := hst
      have hstep : s.transactionAccepted t r = State.accept { s with line := heard } t st r := by
        rw [State.transactionAccepted, hvoid, if_neg Bool.false_ne_true]
        exact congrArg (fun o : Option Station => match o with
          | some st => State.accept { s with line := heard } t st r
          | none => ({ s with line := heard } : State)) hstation
      rw [exec_replyAccepted, haccepted, hstep]
      simp only [State.accept, beq_iff_eq]
      cases t.job <;> rfl
  · rw [State.handReport]
    cases s.set i with
    | none => rfl
    | some r => cases hr : r.report <;> simp [energyDelta, hr]
  · rw [State.deliverySetReport, State.channelTo_of_none h]
  · intro c y d h e u v
    have he : d.addEnergy delta = e := d.addEnergy_eq delta
    have hreport := State.deliverySetReport_of_openTo h x delta
    have htarget : e.set = i := h.target
    refine ⟨fun hy => ?_, fun hy hlow => ?_, fun hy hhigh => ?_, fun hy => ?_, fun hy => ?_, fun n hy => ?_⟩
    · rw [hreport, hy]
      simp only [ChannelState.change, he]
      rfl
    · rw [hreport, hy]
      simp only [ChannelState.change, he, State.judgeHigh]
      exact if_neg (htarget ▸ Nat.not_le.2 hlow)
    · have hv : v.channel c = some { y with state := .flowing e } := State.channel_withChannel h.channel _
      obtain ⟨g, hg, hs⟩ := State.stopThen_of_open hv rfl fun s d =>
        s.haltChannel c { d with highHalts := satAdd d.highHalts 1 } .highMark
      refine ⟨g, hg, ?_⟩
      rw [hreport, hy]
      simp only [ChannelState.change, he, State.judgeHigh]
      exact (if_pos (htarget ▸ hhigh)).trans hs
    · rw [hreport, hy]
      simp only [ChannelState.change, he]
      rfl
    · rw [hreport]
      rcases hy with hy | hy
      · rw [hy]
        simp only [ChannelState.change, he]
        rfl
      · rw [hy]
        simp only [ChannelState.change, he, State.setChannel_withChannel]
        rfl
    · rw [hreport, hy]
      simp only [ChannelState.change, he]
      rfl
  · intro s c y x hy counted full u watched
    have hcounted (d : Delivery) : d.metered x = counted d := rfl
    have hnew : (s.changeChannel c fun ch => { ch with report := some x }).channel c =
        some { y with report := some x } := by
      rw [State.changeChannel_eq hy]; exact State.channel_withChannel hy _
    have hset (q : ChannelState) :
        (s.changeChannel c fun ch => { ch with report := some x }).setChannel c q = u q := by
      rw [State.changeChannel_eq hy, State.setChannel_withChannel]; rfl
    refine ⟨fun h => ?_, fun d h hcount => ?_, fun d h => ?_, fun d q h => ⟨fun hfull => ?_, fun hshort => ?_⟩,
      fun d n h => ?_⟩
    · rw [State.handReport, State.applyBowserReport, hy]
      rcases h with h | ⟨r, n, h⟩
      all_goals
        simp only [h]
        rw [State.changeChannel_eq hy]
        simp only [u, ← h]
        rfl
    · have hzero : (counted d).delivered = 0 := by simp [counted, hcount]
      rw [State.handReport, State.applyBowserReport, hy]
      simp only [h, hcounted, hzero, hset]
      rfl
    · intro v
      have hflow : s.handReport c (.bowser x) =
          (s.changeChannel c fun ch => { ch with report := some x }).judgeFlow c (counted d) := by
        rw [State.handReport, State.applyBowserReport, hy]
        rcases h with ⟨h, hne⟩ | h
        · have hmoved : ((counted d).delivered == 0) = false :=
            beq_eq_false_iff_ne.2 fun h0 => hne (sub_eq_zero.1 h0)
          simp only [h, hcounted, hmoved]
          rfl
        · simp only [h, hcounted]
      refine ⟨fun hshort => ?_, fun hfull => ?_⟩
      · rw [hflow, State.judgeFlow_of_short hshort, hset]
      · have hstop := State.judgeFlow_of_full (d := counted d) hnew hfull
        rw [hset] at hstop
        rwa [hflow]
    · have hreached : (counted d).reached = true := (Delivery.reached_iff _).2 hfull
      rw [State.handReport, State.applyBowserReport, hy]
      simp only [h, hcounted, hreached, if_true, State.settleChannel, hset, State.judgeRunning_eq]
      rfl
    · have hreached : (counted d).reached = false := Bool.eq_false_iff.2 (mt (Delivery.reached_iff _).1 hshort)
      rw [State.handReport, State.applyBowserReport, hy]
      simp only [h, hcounted, hreached, Bool.false_eq_true, if_false, hset, State.judgeRunning_eq]
      rfl
    · rw [State.handReport, State.applyBowserReport, hy]
      simp only [h, hcounted, hset, State.judgeRunning_eq]
      rfl
  · intro s k y x hy u shown
    have hu : (s.changeStage k fun y => { y with report := some x, lost := false }) = u := State.changeStage_eq hy _
    have hnew : u.stage k = some { y with report := some x, lost := false } := State.stage_withStage hy _
    have hshown : resyncState x.closedA x.closedB = shown := by
      simp only [shown]
      cases x.closedA <;> cases x.closedB <;> rfl
    have happly : s.handReport k (.board x) =
        match u.context k with
        | some c => u.judgeBoard k c x
        | none => (u.enterStage k (resyncState x.closedA x.closedB)).judgeSupply k := by
      rw [State.handReport, State.applyBoardReport, hu] <;> rfl
    refine ⟨fun hc => ?_, ?_⟩
    · rw [happly, State.context_of_not_changing hnew hc, hshown]
    · intro c hc back
      have hback : c.fallback = back := by
        simp only [Changeover.fallback, back]
        cases c.source <;> rfl
      rw [happly, State.context_of_changing hnew hc]
      simp only [State.judgeBoard, hshown, State.openConfirmed, State.closeSucceeds, hback]
      cases boardVerdict c.step (c.kind == .restore) (c.board != .none) (positionOf c.target x.closedA x.closedB) with
      | toDead => cases c.board <;> rfl
      | success => cases c.step <;> rfl
      | _ => rfl

end Sys2Proof.Machine
end

section
/-! PROOFS. Failed transactions (04), and what the owners do when a station is lost (05, 06, 07). -/

namespace Sys2Proof.Machine

/-! ### Verdicts and the end of a transaction -/

theorem Transaction.verdict_wrongSource {t : Transaction} {now : Stamp} {destination source kind : Byte}
    {payload : List Byte} (h : destination ≠ 0 ∨ source ≠ BitVec.ofNat 8 t.address) :
    t.verdict now (.good destination source kind payload) = .failed .wrongSource := if_pos h

theorem Transaction.verdict_nak {t : Transaction} {now : Stamp} {destination source kind : Byte} {payload : List Byte}
    (hd : destination = 0) (hs : source = BitVec.ofNat 8 t.address)
    (h : kind ≠ t.job.replyKind ∨ reportOf t.cls now payload = none) :
    t.verdict now (.good destination source kind payload) = .failed .nak := by
  have haddressed : ¬(destination ≠ 0#8 ∨ source ≠ BitVec.ofNat 8 t.address) := by
    rw [not_or, not_not, not_not]; exact ⟨hd, hs⟩
  refine (if_neg haddressed).trans ?_
  by_cases hk : kind = t.job.replyKind
  · have hnone := h.resolve_left (not_not.2 hk)
    refine (if_neg (not_not.2 hk)).trans ?_
    rw [hnone]
  · exact if_pos hk

theorem Line.listening_of_current {l : Line} {t : Transaction} (h : l.current = some t) (hphase : t.phase = .listening) :
    l.listening = some t := by
  simp [listening, h, hphase]

theorem State.transactionFailed_of_void {s : State} {t : Transaction} {f : LineFault} (h : t.void = true) :
    s.transactionFailed t f = s.endTransaction := by
  simp only [transactionFailed, h, if_true]

theorem State.transactionFailed_of_station {s : State} {t : Transaction} {f : LineFault} {st : Station}
    (h : t.void = false) (hst : s.line.station t.cls t.object = some st) :
    s.transactionFailed t f = s.endTransaction.failStation t st f := by
  have hst' : s.endTransaction.line.station t.cls t.object = some st := hst
  simp only [transactionFailed, h, hst', Bool.false_eq_true, if_false]

theorem listeningEnds_of_listening {s : State} {t : Transaction} (h : s.line.listening = some t) (a : LineActivity)
    (f : LineFault) :
    listeningEnds s a f = State.transactionFailed { s with line := s.line.heard a.busyMs a.busyNow } t f := by
  rw [listeningEnds, h]

theorem transactionFault_of_failed {s : State} {t : Transaction} {ms : Nat} {h : LineBytes} {e : LineEnd} {f : LineFault}
    (ht : s.line.listening = some t) (hend : endingOf h = some e) (hv : t.verdict s.now e = .failed f) (hf : f ≠ .tooLong) :
    transactionFault s ms h = State.transactionFailed { s with line := s.line.heardEnd ms e } t f := by
  simp only [transactionFault, ht, hend, hv]

theorem Line.station_heard (l : Line) (ms : Nat) (b : Bool) (c : StationClass) (o : Nat) :
    (l.heard ms b).station c o = l.station c o := rfl

theorem Line.station_heardEnd (l : Line) (ms : Nat) (e : LineEnd) (c : StationClass) (o : Nat) :
    (l.heardEnd ms e).station c o = l.station c o := by
  cases e <;> rfl

theorem exec_silent (a : LineActivity) (s : State) :
    exec (.silent a) s = .next (listeningEnds s a .silent).finish.transmit := rfl

theorem exec_tooLong (a : LineActivity) (s : State) :
    exec (.tooLong a) s = .next (listeningEnds s a .tooLong).finish.transmit := rfl

theorem exec_transactionFault (ms : Nat) (h : LineBytes) (s : State) :
    exec (.transactionFault ms h) s = .next (transactionFault s ms h).finish.transmit := rfl

/-! ### The station that failed -/

/-- A change that leaves the class and the object of a station leaves the entry of every object. -/
theorem Line.entryOf_changeStation (l : Line) (c : StationClass) (o : Nat) {f : Station → Station}
    (hf : ∀ st, (f st).cls = st.cls ∧ (f st).object = st.object) (d : StationClass) (p : Nat) :
    (l.changeStation c o f).entryOf d p = l.entryOf d p := by
  unfold changeStation
  cases h : l.entryOf c o with
  | none => rfl
  | some i =>
    have hsame (e : Option Station) : ((e.map f).elim false fun st => st.cls == d && st.object == p) =
        e.elim false fun st => st.cls == d && st.object == p := by
      cases e with
      | none => rfl
      | some st => rw [Option.map_some, Option.elim_some, Option.elim_some, (hf st).1, (hf st).2]
    have hpass (j : Nat) (q : Bool) :
        (∃ x, (l.stations.modify i fun e => e.map f).get j = some x ∧
            (x.elim false fun st => st.cls == d && st.object == p) = q) ↔
          ∃ x, l.stations.get j = some x ∧ (x.elim false fun st => st.cls == d && st.object == p) = q := by
      rw [Table.get_modify]
      split
      · simp [hsame]
      · rfl
    have hsearch (n : Nat) :
        (l.stations.modify i fun e => e.map f).find (fun e => e.elim false fun st => st.cls == d && st.object == p) = some n ↔
          l.stations.find (fun e => e.elim false fun st => st.cls == d && st.object == p) = some n := by
      rw [Table.find_eq_some, Table.find_eq_some, hpass]
      refine and_congr_right fun _ => forall₂_congr fun j _ => ?_
      have hnone := not_congr (hpass j true)
      simpa using hnone
    exact Option.ext fun n => by simpa [entryOf] using hsearch n

theorem Line.station_changeStation {l : Line} {c : StationClass} {o : Nat} {f : Station → Station} {st : Station}
    (hf : ∀ st, (f st).cls = st.cls ∧ (f st).object = st.object) (h : l.station c o = some st) :
    (l.changeStation c o f).station c o = some (f st) := by
  obtain ⟨i, hi, hst⟩ := Option.bind_eq_some_iff.1 h
  have hget := Table.used_eq_some.1 hst
  rw [station, entryOf_changeStation l c o hf, hi, Option.bind_some, changeStation, hi]
  refine Table.used_eq_some.2 ?_
  simp [hget]

theorem Line.changeStation_congr {l : Line} {c : StationClass} {o : Nat} {f g : Station → Station} {st : Station}
    (h : l.station c o = some st) (hfg : f st = g st) : l.changeStation c o f = l.changeStation c o g := by
  obtain ⟨i, hi, hst⟩ := Option.bind_eq_some_iff.1 h
  have hget := Table.used_eq_some.1 hst
  rw [changeStation, changeStation, hi]
  simp only [Table.modify_of_get _ _ hget, Option.map_some, hfg]

theorem State.failStation_of_lost {s : State} {t : Transaction} {st : Station} {f : LineFault} (h : st.state = .lost) :
    s.failStation t st f =
      { s with line := s.line.changeStation t.cls t.object fun x => { x with lastFault := some f } } := by
  simp only [failStation, h, beq_self_eq_true, if_true]

/-- R63: the line once the failure is kept and the attempt counted. -/
def Line.tried (l : Line) (t : Transaction) (f : LineFault) : Line :=
  (l.changeStation t.cls t.object fun x => { x with lastFault := some f, run := min (x.run + 1) 6 }).countAttempt t.job

theorem State.failStation_of_run {s : State} {t : Transaction} {st : Station} {f : LineFault} (h : st.state ≠ .lost) :
    s.failStation t st f =
      if st.run + 1 = 6 then ({ s with line := s.line.tried t f } : State).loseStation st f
      else ({ s with line := s.line.tried t f } : State).failCommand t.job := by
  simp only [failStation, beq_iff_eq, h, if_false]
  rfl

theorem State.failCommand_of_queued {s : State} {n : Nat} {o : Order} {c : Command} (h : s.line.queued n = some c) :
    s.failCommand (.command n o) =
      if 3 ≤ c.attempts then s.endCommands (fun c => c.serial == n) .noAnswer else s := by
  simp only [failCommand, Line.spent, h, Option.elim_some, decide_eq_true_eq]
  rfl

/-! ### The set, the delivery, the bowser and the board -/

/-- R84: a set of the table changes state. -/
theorem State.enterSet_of_set {s : State} {i : Nat} {r : SetRecord} (h : s.set i = some r) (q : SetState) :
    s.enterSet i q =
      (({ s with
        sets := s.sets.set i
          (some { r with state := q, clearPending := false, startPending := false, timer := none, awaited := none }) } :
        State).post .setState (be 1 i ++ be 1 q.name.value ++ be 1 r.state.name.value ++ be 1 q.causeValue)).tell
          (.setChanged i) := by
  simp only [enterSet, h]
  rw [changeSet_of_set h]

theorem SetState.name_eq_lost {q : SetState} : q.name = .lost ↔ ∃ p, q = .lost p := by
  cases q <;> simp [name]

theorem State.gaugeLost_of_openTo {s : State} {i c : Nat} {y : Channel} {d : Delivery} (h : OpenTo s i c y d) :
    s.gaugeLost i =
      let v := s.withChannel c { y with state := y.state.change fun d => { d with gaugeLost := true } }
      match y.state.change fun d => { d with gaugeLost := true } with
      | .armed _ => v.stopThen c fun s d => s.haltChannel c d .gaugeLost
      | .flowing _ => v.stopThen c fun s d => s.haltChannel c d .gaugeLost
      | .halted d .highMark => v.setChannel c (.halted d .gaugeLost)
      | .halted _ .hold => v
      | .halted _ .gaugeLost => v
      | .settling _ _ => v
      | .idle => v
      | .heldLog _ _ => v := by
  simp only [gaugeLost, channelTo_of_openTo h, changeDelivery_eq h.channel, channelState,
    channel_withChannel h.channel, Option.map_some]
  rcases y.state with _ | _ | _ | ⟨_, _ | _ | _⟩ | _ | _ <;> rfl

theorem State.meterLost_of_channel {s : State} {c : Nat} {y : Channel} (h : s.channel c = some y) :
    s.meterLost c =
      let v := s.withChannel c { y with state := y.state.change fun d => { d with meterLost := true } }
      match y.state.change fun d => { d with meterLost := true } with
      | .armed d => v.settleChannel c d
      | .flowing d => v.settleChannel c d
      | .halted d _ => v.settleChannel c d
      | .settling _ _ => v
      | .idle => v
      | .heldLog _ _ => v := by
  simp only [meterLost, changeDelivery_eq h, channelState, channel_withChannel h, Option.map_some]
  cases y.state <;> rfl

/-! ### Commands that end -/

theorem State.endCommands_some {s : State} {p : Command → Bool} (o : CommandOutcome) (h : ∃ c ∈ s.line.queue, p c = true) :
    s.endCommands p o = (s.endOnly p o).admitWaiting := by
  rw [endCommands, if_pos (List.any_eq_true.2 h)]

theorem Option.filter_eq_self {α : Type} {o : Option α} {p : α → Bool} (h : ∀ x, o = some x → p x = true) : o.filter p = o := by
  cases o with
  | none => rfl
  | some x => rw [Option.filter_some, h x rfl, if_pos rfl]

/-- Settles O24: the verdicts, the failure by the state and the run of its station, the owners by the state of the
object. -/
theorem failedTransactionCounts : Obligations.FailedTransactionCounts := by
  refine ⟨fun f => by cases f <;> rfl, fun t now destination source kind payload => ⟨rfl, rfl, rfl, fun h => ?_,
    fun hd hs h => ?_⟩, fun s t st ht hphase hvoid hst => ⟨fun a => ⟨?_, ?_⟩, fun ms h e f hend hv hf => ?_⟩,
    fun s t a ht hphase hvoid => ⟨?_, ?_⟩, fun s t ms h e f ht hphase hvoid hend hv hf => ?_,
    fun s t st f => ⟨fun h => State.failStation_of_lost h, fun hlost hrun => ?_⟩, fun s o => ⟨rfl, rfl, rfl, rfl⟩,
    fun s i => ⟨fun h => ?_, fun r h => ⟨fun hq => ?_, fun hq => ?_⟩⟩, fun s i => ⟨fun h => ?_, ?_⟩, ?_, ?_,
    fun s p o => s.endWaiting_eq p o, fun s p o => ⟨fun h => s.endCommands_none p o h, fun h => ?_⟩⟩
  · exact Transaction.verdict_wrongSource h
  · refine Transaction.verdict_nak hd hs (h.imp_left fun hk heq => hk ?_)
    rw [heq]
    cases t.job <;> rfl
  · rw [exec_silent, listeningEnds_of_listening (Line.listening_of_current ht hphase),
      State.transactionFailed_of_station (s := { s with line := s.line.heard a.busyMs a.busyNow }) hvoid
        ((Line.station_heard ..).trans hst)]
    rfl
  · rw [exec_tooLong, listeningEnds_of_listening (Line.listening_of_current ht hphase),
      State.transactionFailed_of_station (s := { s with line := s.line.heard a.busyMs a.busyNow }) hvoid
        ((Line.station_heard ..).trans hst)]
    rfl
  · rw [exec_transactionFault, transactionFault_of_failed (Line.listening_of_current ht hphase) hend hv hf,
      State.transactionFailed_of_station (s := { s with line := s.line.heardEnd ms e }) hvoid
        ((Line.station_heardEnd ..).trans hst)]
    rfl
  · rw [exec_silent, listeningEnds_of_listening (Line.listening_of_current ht hphase),
      State.transactionFailed_of_void hvoid]
    rfl
  · rw [exec_tooLong, listeningEnds_of_listening (Line.listening_of_current ht hphase),
      State.transactionFailed_of_void hvoid]
    rfl
  · rw [exec_transactionFault, transactionFault_of_failed (Line.listening_of_current ht hphase) hend hv hf,
      State.transactionFailed_of_void hvoid]
    rfl
  · intro counted tried
    have htried (hst : s.line.station t.cls t.object = some st) : s.line.tried t f = tried := by
      have hcounted : (s.line.changeStation t.cls t.object fun x =>
          { x with lastFault := some f, run := min (x.run + 1) 6 }) = counted := Line.changeStation_congr hst rfl
      rw [Line.tried, hcounted]
      simp only [tried]
      cases t.job with
      | poll => rfl
      | command n o => simp only [Line.countAttempt, Line.failAttempt, beq_iff_eq]
    refine ⟨fun x hst hx => ?_, fun hst h6 => ?_, fun hst h6 => ⟨fun hjob => ?_, fun n o c hjob hc =>
      ⟨fun hlt => ?_, fun hge => ?_⟩⟩⟩
    · have hstations : tried.station t.cls t.object = counted.station t.cls t.object := by
        simp only [tried]
        cases t.job <;> rfl
      have hcounted : counted.station t.cls t.object = some { st with lastFault := some f, run := min (st.run + 1) 6 } :=
        Line.station_changeStation (fun _ => ⟨rfl, rfl⟩) hst
      rw [hstations, hcounted] at hx
      cases hx
      exact ⟨min_eq_left hrun, rfl⟩
    · rw [State.failStation_of_run hlost, if_pos h6, htried hst, State.loseStation, State.endLostCommands]
      simp only [beq_iff_eq]
      split
      next hb => simp only [hb, Station.noticeBytes]
      next => rfl
    · rw [State.failStation_of_run hlost, if_neg h6, htried hst, hjob]
      rfl
    · rw [State.failStation_of_run hlost, if_neg h6, htried hst, hjob, State.failCommand_of_queued (c := c) hc,
        if_neg (Nat.not_le.2 hlt)]
    · rw [State.failStation_of_run hlost, if_neg h6, htried hst, hjob, State.failCommand_of_queued (c := c) hc,
        if_pos hge]
  · rw [State.setLost, h]
  · rw [State.setLost, h]
    exact if_pos (beq_iff_eq.2 (SetState.name_eq_lost.2 hq))
  · have hname : ¬(r.state.name == .lost) = true := by
      rw [beq_iff_eq, SetState.name_eq_lost]
      exact fun ⟨p, hp⟩ => hq p hp
    have hset : ({ s with line := { s.line with waiting := s.line.waiting.filter fun c => !c.isFor .set i } } :
        State).set i = some r := h
    rw [State.setLost, h]
    refine (if_neg hname).trans ?_
    rw [State.enterSet_of_set hset]
    rfl
  · rw [State.gaugeLost, State.channelTo_of_none h]
  · intro c y d h e u
    have hlost := State.gaugeLost_of_openTo h
    refine ⟨fun q hq => ?_, fun hy => ?_, fun q hy hq => ?_, fun n hy => ?_⟩
    · have hv : (u q).channel c = some { y with state := q } := State.channel_withChannel h.channel _
      have ho : ({ y with state := q } : Channel).open_ = some e := by
        rcases hq with ⟨-, rfl⟩ | ⟨-, rfl⟩ <;> rfl
      obtain ⟨g, hg, hs⟩ := State.stopThen_of_open hv ho fun s d => s.haltChannel c d .gaugeLost
      refine ⟨g, hg, hs ▸ ?_⟩
      rw [hlost]
      rcases hq with ⟨hy, rfl⟩ | ⟨hy, rfl⟩ <;> rw [hy] <;> rfl
    · rw [hlost, hy]
      simp only [ChannelState.change, State.setChannel_withChannel]
      rfl
    · rw [hlost, hy]
      cases q with
      | highMark => exact absurd rfl hq
      | hold => rfl
      | gaugeLost => rfl
    · rw [hlost, hy]
      rfl
  · intro s c y h u
    have hlost := State.meterLost_of_channel h
    refine ⟨fun hy => ?_, fun d hy => ?_, fun d n hy => ?_⟩
    · rw [hlost]
      rcases hy with hy | ⟨r, n, hy⟩
      all_goals
        simp only [hy, ChannelState.change]
        rw [← hy]
        exact State.withChannel_self h
    · rw [hlost]
      rcases hy with hy | hy | ⟨q, hy⟩
      all_goals
        simp only [hy, ChannelState.change, State.settleChannel, State.setChannel_withChannel]
        rfl
    · rw [hlost, hy]
      rfl
  · intro s k y h u
    have hu : (s.changeStage k fun x => { x with lost := true }) = u := State.changeStage_eq h _
    have hnew : u.stage k = some { y with lost := true } := State.stage_withStage h _
    refine ⟨fun c hc hstep => ?_, fun hc => ?_⟩
    · rw [State.boardLost, hu, State.context_of_changing hnew hc]
      rcases hstep with hstep | hstep
      all_goals
        simp only [hstep, Changeover.fallback]
        cases c.source <;> rfl
    · rw [State.boardLost, hu]
      cases hy : y.state with
      | changing c =>
        obtain ⟨hp, hb⟩ := hc c hy
        rw [State.context_of_changing hnew hy]
        cases hstep : c.step with
        | preparing => exact absurd hstep hp
        | boundary => exact absurd hstep hb
        | _ => simp only [hstep]
      | _ => rw [State.context_of_not_changing hnew (by simp [hy])]
  · refine ⟨s.line.current.filter fun t => (s.line.queue.filter p).all fun c => !t.chosenFor c.serial,
      fun ⟨t, n, x, ht, hphase, hjob, c, hc, hp, hn⟩ => ?_, fun hother => ?_, ?_⟩
    · have hgone : ((s.line.queue.filter p).all fun c => !t.chosenFor c.serial) = false := by
        refine List.all_eq_false.2 ⟨c, List.mem_filter.2 ⟨hc, hp⟩, ?_⟩
        rw [hn, (t.chosenFor_iff n).2 ⟨hphase, x, hjob⟩]
        decide
      rw [ht, Option.filter_some, hgone]
      rfl
    · refine Option.filter_eq_self fun t ht => List.all_eq_true.2 fun c hc => ?_
      obtain ⟨hc, hp⟩ := List.mem_filter.1 hc
      rw [Bool.not_eq_true', Bool.eq_false_iff, Ne, Transaction.chosenFor_iff]
      exact fun ⟨hphase, x, hjob⟩ => hother t _ x ht hphase hjob c hc hp rfl
    · rw [State.endCommands_some o h, State.endOnly_eq]
      exact State.admitWaiting_admits _

end Sys2Proof.Machine
end

section
/-! PROOFS. The timers of a set, its engine commands, and its faults (05). -/

namespace Sys2Proof.Machine

/-! ### A set record replaced -/

/-- The record of a set becomes another. -/
def State.withSet (s : State) (i : Nat) (r : SetRecord) : State := { s with sets := s.sets.set i (some r) }

theorem State.changeSet_eq {s : State} {i : Nat} {r : SetRecord} (h : s.set i = some r) (f : SetRecord → SetRecord) :
    s.changeSet i f = s.withSet i (f r) := changeSet_of_set h f

@[simp] theorem State.changeSet_withSet (s : State) (i : Nat) (r : SetRecord) (f : SetRecord → SetRecord) :
    (s.withSet i r).changeSet i f = s.withSet i (f r) := by
  simp [withSet, changeSet]

theorem State.set_withSet {s : State} {i : Nat} {x : SetRecord} (h : s.set i = some x) (r : SetRecord) :
    (s.withSet i r).set i = some r :=
  Table.used_eq_some.2 (Table.get_set_self _ _ (sets_get_of_set h))

@[simp] theorem State.startSetTimer_withSet (s : State) (i : Nat) (r : SetRecord) (k : SetTimerKind) (n : Nat) :
    (s.withSet i r).startSetTimer i k n = s.withSet i { r with timer := some ⟨k, n⟩ } := changeSet_withSet ..

@[simp] theorem State.offerAwaited_withSet (s : State) (i : Nat) (r : SetRecord) (o : Order) :
    (s.withSet i r).offerAwaited i o =
      (s.withSet i { r with awaited := some s.line.nextSerial }).offer o i .routine := by
  rw [offerAwaited, changeSet_withSet]
  rfl

theorem State.setStateOf_of_set {s : State} {i : Nat} {r : SetRecord} (h : s.set i = some r) :
    s.setStateOf i = some r.state.name := by
  rw [setStateOf, h, Option.map_some]

/-! ### Becoming FAULTED -/

theorem EngineState.recallsOnFault_iff (q : EngineState) :
    q.recallsOnFault = true ↔ q = .cranking ∨ q = .warming ∨ q = .online ∨ q = .cooling := by
  cases q <;> simp [recallsOnFault]

theorem State.recallEngine_eq (s : State) (i : Nat) :
    s.recallEngine i =
      (((s.line.queue ++ s.line.waiting).filter fun c =>
        (c.order == .startEngine || c.order == .stopEngine) && c.object == i).map fun c => c.serial).foldl State.recall
          s := by
  rw [recallEngine, recallAll, List.foldl_map]
  rfl

/-- R74, R81: becoming FAULTED recalls the engine commands of a running set; SHUTDOWN offers a stop. -/
theorem State.faultSet_of_set {s : State} {i : Nat} {r : SetRecord} (h : s.set i = some r) (cause : FaultCause) :
    s.faultSet i cause =
      let running :=
        r.state.name = .cranking ∨ r.state.name = .warming ∨ r.state.name = .online ∨ r.state.name = .cooling
      let faulted := (if running then s.recallEngine i else s).enterSet i (.faulted cause)
      if cause = .shutdown then faulted.offer .stopEngine i .safety else faulted := by
  simp only [faultSet, setStateOf_of_set h, Option.elim_some, EngineState.recallsOnFault_iff, beq_iff_eq]

/-! ### Expiries -/

theorem SetRecord.expired_iff (r : SetRecord) (k : SetTimerKind) : r.expired k = true ↔ r.timer = some ⟨k, 0⟩ := beq_iff_eq

theorem crankTimerExpiry_of_expired {s : State} {i n : Nat} {r : SetRecord} (h : s.set i = some r)
    (hr : r.state = .cranking n .crank) (ht : r.timer = some ⟨.crank, 0⟩) :
    crankTimerExpiry s i =
      (s.withSet i { r with state := .cranking n .rest, timer := none, awaited := some s.line.nextSerial }).offer .stopEngine
        i .routine := by
  simp only [crankTimerExpiry, h, hr, (r.expired_iff .crank).2 ht, if_true]
  rw [State.changeSet_eq h, State.offerAwaited_withSet]

theorem crankTimerExpiry_of_not {s : State} {i : Nat} {r : SetRecord} (h : s.set i = some r)
    (hr : r.timer ≠ some ⟨.crank, 0⟩ ∨ ∀ n, r.state ≠ .cranking n .crank) : crankTimerExpiry s i = s := by
  simp only [crankTimerExpiry, h]
  split
  next n hn => exact if_neg (mt (r.expired_iff .crank).1 (hr.resolve_right fun hno => hno n hn))
  next => rfl

theorem crankRestExpiry_of_expired {s : State} {i n : Nat} {r : SetRecord} (h : s.set i = some r)
    (hr : r.state = .cranking n .rest) (ht : r.timer = some ⟨.crankRest, 0⟩) :
    crankRestExpiry s i =
      if 3 ≤ n then s.faultSet i .noStart
      else
        (s.withSet i
          { r with state := .cranking (n + 1) .crank, timer := none, awaited := some s.line.nextSerial }).offer .startEngine
            i .routine := by
  simp only [crankRestExpiry, h, hr, (r.expired_iff .crankRest).2 ht, if_true]
  rw [State.changeSet_eq h, State.offerAwaited_withSet]

theorem crankRestExpiry_of_not {s : State} {i : Nat} {r : SetRecord} (h : s.set i = some r)
    (hr : r.timer ≠ some ⟨.crankRest, 0⟩ ∨ ∀ n, r.state ≠ .cranking n .rest) : crankRestExpiry s i = s := by
  simp only [crankRestExpiry, h]
  split
  next n hn => exact if_neg (mt (r.expired_iff .crankRest).1 (hr.resolve_right fun hno => hno n hn))
  next => rfl

theorem warmUpExpiry_eq {s : State} {i : Nat} {r : SetRecord} (h : s.set i = some r) :
    warmUpExpiry s i =
      if r.state = .warming ∧ r.timer = some ⟨.warmUp, 0⟩ then s.enterSet i .online else s := by
  simp only [warmUpExpiry, h, Option.elim_some, Bool.and_eq_true, beq_iff_eq, SetRecord.expired_iff]

theorem coolDownExpiry_eq {s : State} {i : Nat} {r : SetRecord} (h : s.set i = some r) :
    coolDownExpiry s i =
      if r.state = .cooling ∧ r.timer = some ⟨.coolDown, 0⟩ then
        (s.withSet i { r with timer := none, awaited := some s.line.nextSerial }).offer .stopEngine i .routine
      else s := by
  simp only [coolDownExpiry, h, Option.elim_some, Bool.and_eq_true, beq_iff_eq, SetRecord.expired_iff]
  rw [State.changeSet_eq h, State.offerAwaited_withSet]

theorem exec_crankTimerExpiry (i : Nat) (s : State) :
    exec (.crankTimerExpiry i) s = .next (crankTimerExpiry s i).finish.transmit := rfl

theorem exec_crankRestExpiry (i : Nat) (s : State) :
    exec (.crankRestExpiry i) s = .next (crankRestExpiry s i).finish.transmit := rfl

theorem exec_warmUpExpiry (i : Nat) (s : State) :
    exec (.warmUpExpiry i) s = .next (warmUpExpiry s i).finish.transmit := rfl

theorem exec_coolDownExpiry (i : Nat) (s : State) :
    exec (.coolDownExpiry i) s = .next (coolDownExpiry s i).finish.transmit := rfl

/-! ### Outcomes of engine commands -/

theorem State.engineOutcome_awaited {s : State} {c : Command} {r : SetRecord} (h : s.set c.object = some r)
    (ha : r.awaited = some c.serial) (o : CommandOutcome) :
    s.engineOutcome c o =
      match r.state, c.order with
      | .cranking n .crank, .startEngine => s.startEnded c.object n o
      | .cranking _ .rest, .stopEngine => s.crankStopEnded c.object o
      | .cooling, .stopEngine => s.coolStopEnded c.object o
      | .faulted _, .clearShutdown => s.clearEnded c.object r o
      | _, _ => s := by
  simp only [engineOutcome, h, ha, beq_self_eq_true, if_true] <;> rfl

theorem State.startEnded_of_set {s : State} {i : Nat} {r : SetRecord} (h : s.set i = some r) (n : Nat)
    (o : CommandOutcome) :
    s.startEnded i n o =
      match o with
      | .done => s.withSet i { r with awaited := none, timer := some ⟨.crank, 150⟩ }
      | .noAnswer => s.withSet i { r with state := .cranking n .rest, awaited := none, timer := some ⟨.crankRest, 100⟩ }
      | .removed => s := by
  cases o with
  | removed => rfl
  | done => simp only [startEnded, changeSet_eq h, startSetTimer_withSet]; rfl
  | noAnswer => simp only [startEnded, changeSet_eq h, startSetTimer_withSet]; rfl

theorem State.crankStopEnded_of_set {s : State} {i : Nat} {r : SetRecord} (h : s.set i = some r) (o : CommandOutcome) :
    s.crankStopEnded i o =
      match o with
      | .done => s.withSet i { r with awaited := none, timer := some ⟨.crankRest, 100⟩ }
      | .noAnswer => s.faultSet i .stopFailed
      | .removed => s := by
  cases o with
  | removed => rfl
  | done => simp only [crankStopEnded, changeSet_eq h, startSetTimer_withSet]; rfl
  | noAnswer => rfl

theorem State.coolStopEnded_of_set {s : State} {i : Nat} {r : SetRecord} (h : s.set i = some r) (o : CommandOutcome) :
    s.coolStopEnded i o =
      match o with
      | .done => (s.withSet i { r with awaited := some s.line.nextSerial }).offer .stopEngine i .routine
      | .noAnswer => s.faultSet i .stopFailed
      | .removed => s := by
  cases o with
  | removed => rfl
  | done => simp only [coolStopEnded, offerAwaited, changeSet_eq h]
  | noAnswer => rfl

theorem State.clearEnded_quiet {s : State} {i : Nat} {r : SetRecord} (h : s.set i = some r) {o : CommandOutcome}
    (hno : o ≠ .done ∨ r.report = none) :
    s.clearEnded i r o = s.withSet i { r with clearPending := false, awaited := none } := by
  simp only [clearEnded, changeSet_eq h]
  cases o with
  | done => simp only [hno.resolve_left (not_not.2 rfl)]
  | noAnswer => rfl
  | removed => rfl

theorem State.clearEnded_judged {s : State} {i : Nat} {r : SetRecord} (h : s.set i = some r) {x : SetReport}
    (hx : r.report = some x) :
    s.clearEnded i r .done = (s.withSet i { r with clearPending := false, awaited := none }).clearJudged i x.engine := by
  simp only [clearEnded, changeSet_eq h, hx]

/-- R82: the cleared set is judged from its report. -/
theorem State.clearJudged_withSet (s : State) (i : Nat) (r : SetRecord) (e : Engine) :
    (s.withSet i r).clearJudged i e =
      match e with
      | .running => (s.withSet i r).enterSet i .online
      | .shutdown => s.withSet i { r with state := .faulted .shutdown }
      | .off =>
        if s.feeding i then s.withSet i { r with state := .faulted .offWhileFeeding }
        else (s.withSet i r).enterSet i .stopped
      | .cranking =>
        if s.feeding i then s.withSet i { r with state := .faulted .offWhileFeeding }
        else
          ((s.withSet i r).enterSet i (.cranking 1 .crank)).changeSet i fun q => { q with timer := some ⟨.crank, 150⟩ } := by
  simp only [clearJudged, changeSet_withSet]
  cases e <;> rfl

/-- Settles O30: each expiry and each outcome by the state and the timer of the set. -/
theorem setTimersExpire : Obligations.SetTimersExpire := by
  refine ⟨fun s i h => ?_, fun s i r h => ⟨fun n hr ht => ?_, fun n hr ht => ⟨fun hn => ?_, fun hn => ?_⟩, fun hr ht => ?_,
    fun hr ht => ?_, fun hr => ?_, fun hr => ?_, fun hr => ?_, fun hr => ?_⟩, fun s i => s.recallEngine_eq i,
    fun s i r cause h => State.faultSet_of_set h cause, fun s c o h => ?_, ?_⟩
  · simp only [exec_crankTimerExpiry, exec_crankRestExpiry, exec_warmUpExpiry, exec_coolDownExpiry, crankTimerExpiry,
      crankRestExpiry, warmUpExpiry, coolDownExpiry, h]
    exact ⟨trivial, trivial, rfl, rfl⟩
  · rw [exec_crankTimerExpiry, crankTimerExpiry_of_expired h hr ht]
    rfl
  · rw [exec_crankRestExpiry, crankRestExpiry_of_expired h hr ht, if_neg (Nat.not_le.2 hn)]
    rfl
  · rw [exec_crankRestExpiry, crankRestExpiry_of_expired h hr ht, if_pos hn, State.faultSet_of_set h]
    simp only [hr]
    rfl
  · rw [exec_warmUpExpiry, warmUpExpiry_eq h, if_pos ⟨hr, ht⟩]
  · rw [exec_coolDownExpiry, coolDownExpiry_eq h, if_pos ⟨hr, ht⟩]
    rfl
  · rw [exec_crankTimerExpiry, crankTimerExpiry_of_not h hr]
  · rw [exec_crankRestExpiry, crankRestExpiry_of_not h hr]
  · rw [exec_warmUpExpiry, warmUpExpiry_eq h, if_neg fun ⟨hs, ht⟩ => hr.elim (fun hne => hne ht) fun hne => hne hs]
  · rw [exec_coolDownExpiry, coolDownExpiry_eq h, if_neg fun ⟨hs, ht⟩ => hr.elim (fun hne => hne ht) fun hne => hne hs]
  · rw [State.engineOutcome, h]
  · intro s c o r h i now
    refine ⟨fun ha => ?_, fun ha => ?_⟩
    · rw [State.engineOutcome, h]
      exact if_neg (mt beq_iff_eq.1 ha)
    · have houtcome := State.engineOutcome_awaited h ha o
      refine ⟨fun n hr ho => ?_, fun n hr ho => ?_, fun hr ho => ?_, fun cause hr ho => ?_, fun h1 h2 h3 h4 => ?_⟩
      · have hstart : s.engineOutcome c o = s.startEnded i n o := by rw [houtcome, hr, ho]
        exact hstart.trans (State.startEnded_of_set h n o)
      · have hstop : s.engineOutcome c o = s.crankStopEnded i o := by rw [houtcome, hr, ho]
        exact hstop.trans (State.crankStopEnded_of_set h o)
      · have hstop : s.engineOutcome c o = s.coolStopEnded i o := by rw [houtcome, hr, ho]
        exact hstop.trans (State.coolStopEnded_of_set h o)
      · intro cleared
        have hclear : s.engineOutcome c o = s.clearEnded i r o := by rw [houtcome, hr, ho]
        refine ⟨fun hno => hclear.trans (State.clearEnded_quiet h hno), fun x hdone hx => ?_⟩
        rw [hclear, hdone, State.clearEnded_judged h hx]
        exact s.clearJudged_withSet i _ x.engine
      · rw [houtcome]
        split
        next n hr ho => exact absurd ho (h1 n hr)
        next n hr ho => exact absurd ho (h2 n hr)
        next hr ho => exact absurd ho (h3 hr)
        next cause hr ho => exact absurd ho (h4 cause hr)
        next => rfl

end Sys2Proof.Machine
end

section
/-! PROOFS. The requests of the Set monitor (05). -/

namespace Sys2Proof.Machine

/-! ### Checks as the statements write them -/

theorem Option.decide_eq_none_eq_isNone {α : Type} (o : Option α) [Decidable (o = none)] : decide (o = none) = o.isNone := by
  cases o <;> simp

theorem bne_eq_decide_ne {α : Type} [BEq α] [LawfulBEq α] (a b : α) [Decidable (a ≠ b)] : (a != b) = decide (a ≠ b) := by
  by_cases h : a = b <;> simp [h]

theorem setChecks_eq (s : State) (i : Nat) :
    setChecks s i =
      [(decide (11 < i), .refused .range 1 0xFF), (decide (s.set i = none), .refused .absent 1 0xFF)] := by
  rw [Option.decide_eq_none_eq_isNone]
  rfl

theorem State.exists_set {s : State} {i : Nat} (h : decide (s.set i = none) = false) : ∃ r, s.set i = some r :=
  Option.ne_none_iff_exists'.1 (of_decide_eq_false h)

theorem State.changeSet_changeSet (s : State) (i : Nat) (f g : SetRecord → SetRecord) :
    (s.changeSet i f).changeSet i g = s.changeSet i fun r => g (f r) := by
  simp only [changeSet]
  congr 1
  refine Table.ext_get fun j => ?_
  simp only [Table.get_modify]
  split
  · simp [Option.map_map, Function.comp_def]
  · rfl

theorem State.line_enterSet (s : State) (i : Nat) (q : SetState) : (s.enterSet i q).line = s.line := by
  unfold enterSet
  cases s.set i with
  | none => rfl
  | some r => simp

/-! ### START SET -/

theorem exec_startSet_offered {s : State} {tag : Byte} {i : Nat} (hi : i < 256) (h : Offered s .yard 0x2A tag (be 1 i)) :
    exec (.startSet .yard) s =
      .next (deliver .yard (unlessRefused (s.judged .yard)
        [(decide (11 < i), .refused .range 1 0xFF), (decide (s.set i = none), .refused .absent 1 0xFF),
          ((s.windows.deniesSet .crew i).isSome, .refused .denied 1 ((s.windows.deniesSet .crew i).getD 0xFF)),
          (decide (s.lease i = none), .refused .notLeased 1 0xFF)]
        (finished (match s.setStateOf i with
          | some .stopped =>
            if s.line.consoleRoom .routine then done ((s.judged .yard).startFromStopped i) []
            else (s.judged .yard, some (refuse .busy 0))
          | some .cooling =>
            if s.coolingReturns i then done ((s.judged .yard).returnOnline i) []
            else (s.judged .yard, some (refuse .state 1))
          | _ => (s.judged .yard, some (refuse .state 1)))))).transmit := by
  rw [exec_of_fields (row := .startSet) (owner := finishing ownStartSet) rfl h rfl [(1, i)] rfl (by simp [hi])
    (by simp [encodeFields]), finishing, ownStartSet, finished_unlessRefused (by simp [setChecks, denied, refuse]),
    setChecks_eq, Option.decide_eq_none_eq_isNone (s.lease i)]
  rfl

theorem State.coolingReturns_iff (s : State) (i : Nat) :
    s.coolingReturns i = true ↔ (∃ r, s.set i = some r ∧ r.timer ≠ none) ∨ s.awaitsUncommitted i = true := by
  rw [coolingReturns, Bool.or_eq_true]
  cases h : s.set i <;> simp [Option.isSome_iff_ne_none]

/-! ### STOP SET and CLEAR FAULT -/

theorem exec_stopSet_offered {s : State} {tag : Byte} {i : Nat} (hi : i < 256) (h : Offered s .yard 0x2B tag (be 1 i)) :
    exec (.stopSet .yard) s =
      .next (deliver .yard (unlessRefused (s.judged .yard)
        [(decide (11 < i), .refused .range 1 0xFF), (decide (s.set i = none), .refused .absent 1 0xFF),
          ((s.windows.deniesSet .crew i).isSome, .refused .denied 1 ((s.windows.deniesSet .crew i).getD 0xFF)),
          (s.stages.cells.any fun k => k.fedSet == some i || k.outgoing == some i || k.incoming == some i,
            .refused .state 1 0xFF),
          (decide (s.setStateOf i ≠ some .online ∧ s.setStateOf i ≠ some .warming), .refused .state 1 0xFF)]
        (((((s.judged .yard).enterSet i .cooling).startSetTimer i .coolDown
          ((s.set i).elim (10 * Config.coolDownDefault) SetRecord.coolDownTenths)).finish, some (.done []))))).transmit := by
  have hstate : (!(s.setStateOf i == some .online || s.setStateOf i == some .warming)) =
      decide (s.setStateOf i ≠ some .online ∧ s.setStateOf i ≠ some .warming) := by
    rw [Bool.not_or, Bool.decide_and]
    exact congrArg₂ and (bne_eq_decide_ne _ _) (bne_eq_decide_ne _ _)
  rw [exec_of_fields (row := .stopSet) (owner := finishing ownStopSet) rfl h rfl [(1, i)] rfl (by simp [hi])
    (by simp [encodeFields]), finishing, ownStopSet, finished_unlessRefused (by simp [setChecks, denied, refuse]),
    setChecks_eq, ← hstate]
  rfl

theorem exec_clearFault_offered {s : State} {tag : Byte} {i : Nat} (hi : i < 256) (h : Offered s .yard 0x2C tag (be 1 i)) :
    exec (.clearFault .yard) s =
      .next (deliver .yard (unlessRefused (s.judged .yard)
        [(decide (11 < i), .refused .range 1 0xFF), (decide (s.set i = none), .refused .absent 1 0xFF),
          ((s.windows.deniesSet .crew i).isSome, .refused .denied 1 ((s.windows.deniesSet .crew i).getD 0xFF)),
          (decide (s.setStateOf i ≠ some .faulted), .refused .state 1 0xFF),
          ((s.set i).any fun r => r.clearPending, .refused .state 1 0xFF),
          (s.stages.cells.any fun k => k.fedSet == some i, .refused .state 1 0xFF),
          (!s.line.consoleRoom .routine, .refused .busy 0 0xFF)]
        ((((s.judged .yard).changeSet i fun r => { r with clearPending := true }).offerAwaited i .clearShutdown).finish,
          some (.done [])))).transmit := by
  have hstate : (s.setStateOf i != some .faulted) = decide (s.setStateOf i ≠ some .faulted) := bne_eq_decide_ne _ _
  rw [exec_of_fields (row := .clearFault) (owner := finishing ownClearFault) rfl h rfl [(1, i)] rfl (by simp [hi])
    (by simp [encodeFields]), finishing, ownClearFault, finished_unlessRefused (by simp [setChecks, denied, refuse]),
    setChecks_eq, ← hstate, ← Option.elim_false_eq_any]
  rfl

/-- Settles O27: the requests by their checks; START SET then by the state of the set. -/
theorem setsStartStopAndClear : Obligations.SetsStartStopAndClear := by
  refine ⟨⟨?_, fun s i => ?_, fun s i r h => ?_⟩, ?_, ?_⟩
  · intro s tag i hi h t
    refine (firstDecides_of (fun x => exec (.startSet .yard) s = .next (deliver .yard x).transmit)
      (exec_startSet_offered hi h)).imp (fun _ => id) fun hacc => ⟨fun hq => ⟨fun hroom => ?_, fun hroom => ?_⟩,
        fun hq => ⟨fun hback => ?_, fun htimer hawait => ?_⟩, fun hstopped hcooling => ?_⟩
    · rw [hacc, hq]
      simp only [hroom, Bool.false_eq_true, if_false]
      rfl
    · rw [hacc, hq]
      simp only [hroom, if_true]
      rfl
    · rw [hacc, hq]
      simp only [(s.coolingReturns_iff i).2 hback, if_true]
      rfl
    · have hstays : ¬s.coolingReturns i = true := by
        rw [s.coolingReturns_iff i]
        rintro (⟨r, hr, ht⟩ | ha)
        · exact ht (htimer r hr)
        · rw [hawait] at ha
          exact Bool.false_ne_true ha
      rw [hacc, hq]
      simp only [hstays]
      rfl
    · rw [hacc]
      split
      next hq => exact absurd hq hstopped
      next hq => exact absurd hq hcooling
      next => rfl
  · rw [State.startFromStopped, State.offerAwaited, State.line_enterSet]
  · cases ha : r.awaited <;> simp [State.returnOnline, State.recallAwaited, h, ha]
  · intro s tag i hi h t
    obtain ⟨hrefused, haccepted⟩ :=
      firstDecides_of (fun x => exec (.stopSet .yard) s = .next (deliver .yard x).transmit) (exec_stopSet_offered hi h)
    refine ⟨hrefused, fun hnone => ?_⟩
    obtain ⟨r, hr⟩ := State.exists_set (hnone (decide (s.set i = none), .refused .absent 1 0xFF) (by simp))
    refine ⟨r, hr, ?_⟩
    rw [haccepted hnone, hr]
    simp only [Option.elim_some, SetRecord.coolDownTenths]
    cases r.lease <;> rfl
  · intro s tag i hi h t
    refine (firstDecides_of (fun x => exec (.clearFault .yard) s = .next (deliver .yard x).transmit)
      (exec_clearFault_offered hi h)).imp (fun _ => id) fun hacc => ?_
    rw [hacc, State.offerAwaited, State.changeSet_changeSet]
    rfl

/-! ### LEASE SET and RELEASE SET -/

theorem badTime_eq (t low high : Nat) : badTime t low high = decide (t ≠ 0 ∧ (t < low ∨ high < t)) := by
  rw [badTime, Bool.decide_and, Bool.decide_or, bne_eq_decide_ne]

theorem exec_leaseSet_offered {s : State} {tag : Byte} {i vendor hire rating capacity declared warmUp coolDown : Nat}
    (hi : i < 256) (hv : vendor < 65536) (hh : hire < 4294967296) (hr : rating < 65536) (hc : capacity < 65536)
    (hd : declared < 65536) (hw : warmUp < 65536) (hcd : coolDown < 65536)
    (h : Offered s .office 0x28 tag
      (be 1 i ++ be 2 vendor ++ be 4 hire ++ be 2 rating ++ be 2 capacity ++ be 2 declared ++ be 2 warmUp ++
        be 2 coolDown)) :
    exec (.leaseSet .office) s =
      .next (deliver .office (ownLeaseSet [i, vendor, hire, rating, capacity, declared, warmUp, coolDown]
        (s.judged .office))).transmit :=
  exec_of_fields (row := .leaseSet) rfl h rfl
    [(1, i), (2, vendor), (4, hire), (2, rating), (2, capacity), (2, declared), (2, warmUp), (2, coolDown)] rfl
    (by simp [*]) (by simp [encodeFields])

/-- R93: LEASE SET with its checks as a list of the fields. -/
theorem ownLeaseSet_eq (s : State) (i vendor hire rating capacity declared warmUp coolDown : Nat) :
    ownLeaseSet [i, vendor, hire, rating, capacity, declared, warmUp, coolDown] s =
      unlessRefused s
        [(decide (11 < i), .refused .range 1 0xFF), (decide (s.set i = none), .refused .absent 1 0xFF),
          ((s.windows.deniesSet .office i).isSome, .refused .denied 1 ((s.windows.deniesSet .office i).getD 0xFF)),
          (decide (s.lease i ≠ none), .refused .conflict 1 0xFF),
          (decide (rating = 0), .refused .range 4 0xFF),
          (decide (capacity = 0 ∨ capacity < (s.marksOf i).high), .refused .range 5 0xFF),
          (decide (declared < 100 ∨ 2000 < declared), .refused .range 6 0xFF),
          (decide (warmUp ≠ 0 ∧ (warmUp < 30 ∨ 600 < warmUp)), .refused .range 7 0xFF),
          (decide (coolDown ≠ 0 ∧ (coolDown < 60 ∨ 900 < coolDown)), .refused .range 8 0xFF)]
        (done (s.changeSet i fun r =>
          { r with
            lease := some
              ⟨vendor, hire, rating, capacity, declared, if warmUp = 0 then 120 else warmUp,
                if coolDown = 0 then 300 else coolDown, s.now, .zero, .zero, none, 0, 0⟩ }) []) := by
  have hlease : decide (s.lease i ≠ none) = (s.lease i).isSome := by cases s.lease i <;> simp
  rw [ownLeaseSet, setChecks_eq, hlease, ← badTime_eq, ← badTime_eq, Bool.decide_or, Bool.decide_or]
  simp only [arg, Nat.sub_self, List.getD_cons_zero, Nat.reduceSub, List.getD_cons_succ, beq_iff_eq, ← beq_eq_decide]
  rfl

theorem Channel.targets_eq (y : Channel) (i : Nat) :
    ((y.open_.map fun d => d.set) == some i) = y.open_.any fun d => d.set == i := by
  cases y.open_ <;> rfl

theorem State.deliveryOpen_eq (s : State) (i : Nat) :
    s.deliveryOpen i = s.deliveries.channels.cells.any fun x => x.open_.any fun d => d.set == i := by
  simp only [deliveryOpen, channelTo, Table.find_isSome, Channel.targets_eq]

theorem Period.fullFor_eq (p : Period) (i : Nat) :
    p.fullFor i =
      decide (i ∉ (match p.close with | some c => c.counted | none => []) ∧
        24 ≤ p.hire.length + (match p.close with | some c => c.counted | none => []).length) := by
  cases h : p.close with
  | none =>
    simp only [fullFor, h, List.not_mem_nil, not_false_eq_true, true_and, List.length_nil, Nat.add_zero]
    rfl
  | some c =>
    simp only [fullFor, h, List.contains_eq_mem, Bool.decide_and, decide_not]
    rfl

theorem exec_releaseSet_offered {s : State} {tag : Byte} {i : Nat} (hi : i < 256)
    (h : Offered s .office 0x29 tag (be 1 i)) :
    exec (.releaseSet .office) s =
      .next (deliver .office (unlessRefused (s.judged .office)
        [(decide (11 < i), .refused .range 1 0xFF), (decide (s.set i = none), .refused .absent 1 0xFF),
          ((s.windows.deniesSet .office i).isSome, .refused .denied 1 ((s.windows.deniesSet .office i).getD 0xFF)),
          (decide (s.lease i = none), .refused .notLeased 1 0xFF),
          (decide (s.setStateOf i ≠ some .stopped) ||
              (s.stages.cells.any fun k => k.inputA == some i || k.inputB == some i) ||
              s.deliveries.channels.cells.any fun x => x.open_.any fun d => d.set == i,
            .refused .state 1 0xFF),
          (decide (i ∉ (match s.period.close with | some c => c.counted | none => []) ∧
              24 ≤ s.period.hire.length + (match s.period.close with | some c => c.counted | none => []).length),
            .refused .full 0 0xFF)]
        (match s.lease i with
          | none => (s.judged .office, some (refuse .notLeased 1))
          | some l =>
            done ((({ s.judged .office with
              period := { s.period.uncount i with
                hire := (s.period.uncount i).hire ++ [hireLine i .release l (s.period.uncount i).number s.now] } } :
                  State)).changeSet i fun r => { r with lease := none }) []))).transmit := by
  have hstate : (s.setStateOf i != some .stopped) = decide (s.setStateOf i ≠ some .stopped) := bne_eq_decide_ne _ _
  rw [exec_of_fields (row := .releaseSet) (owner := ownReleaseSet) rfl h rfl [(1, i)] rfl (by simp [hi])
    (by simp [encodeFields]), ownReleaseSet, setChecks_eq, ← State.deliveryOpen_eq, ← Period.fullFor_eq,
    ← hstate, Option.decide_eq_none_eq_isNone (s.lease i)]
  rfl

/-! ### ACK ALARMS and SET MARKS -/

theorem exec_ackAlarms_offered {s : State} {tag : Byte} {i : Nat} (hi : i < 256) (h : Offered s .yard 0x2D tag (be 1 i)) :
    exec (.ackAlarms .yard) s =
      .next (deliver .yard (unlessRefused (s.judged .yard)
        [(decide (11 < i), .refused .range 1 0xFF), (decide (s.set i = none), .refused .absent 1 0xFF)]
        (done ((s.judged .yard).changeSet i fun r =>
            { r with snapshot := ((s.set i).bind fun r => r.report).elim 0 fun x => x.alarm, latchHeld := false })
          [((s.set i).bind fun r => r.report).elim 0 fun x => x.alarm]))).transmit := by
  rw [exec_of_fields (row := .ackAlarms) (owner := ownAckAlarms) rfl h rfl [(1, i)] rfl (by simp [hi])
    (by simp [encodeFields]), ownAckAlarms, setChecks_eq]
  rfl

/-- R86: the first mark out of order decides the refusal. -/
theorem unlessRefused_setMarks (s : State) (i low lowClear highClear high : Nat) (capacity : Option Nat) (act : Answered) :
    unlessRefused s
        (setChecks s i ++
          [(((⟨low, lowClear, highClear, high⟩ : Marks).firstBad capacity).isSome,
            refuse .range (((⟨low, lowClear, highClear, high⟩ : Marks).firstBad capacity).getD 0))]) act =
      unlessRefused s
        [(decide (11 < i), .refused .range 1 0xFF), (decide (s.set i = none), .refused .absent 1 0xFF),
          (decide (lowClear ≤ low), .refused .range 3 0xFF), (decide (highClear ≤ lowClear), .refused .range 4 0xFF),
          (decide (high ≤ highClear) || capacity.any fun c => decide (c < high), .refused .range 5 0xFF)] act := by
  rw [setChecks_eq, ← Option.elim_false_eq_any]
  simp only [List.cons_append, List.nil_append, unlessRefused_cons, unlessRefused_nil, Marks.firstBad]
  by_cases h3 : lowClear ≤ low
  · simp [h3, refuse]
  · by_cases h4 : highClear ≤ lowClear
    · simp [h3, h4, refuse]
    · cases hbad : decide (high ≤ highClear) || capacity.elim false fun c => decide (c < high) <;>
        simp [h3, h4, refuse]

/-- R86: SET MARKS with its checks as a list of the fields. -/
theorem ownSetMarks_eq (s : State) (i low lowClear highClear high : Nat) :
    ownSetMarks [i, low, lowClear, highClear, high] s =
      unlessRefused s
        [(decide (11 < i), .refused .range 1 0xFF), (decide (s.set i = none), .refused .absent 1 0xFF),
          (decide (lowClear ≤ low), .refused .range 3 0xFF), (decide (highClear ≤ lowClear), .refused .range 4 0xFF),
          (decide (high ≤ highClear) || (s.lease i).any fun l => decide (l.capacity < high), .refused .range 5 0xFF)]
        (done ({ s with marks := s.marks.set i ⟨low, lowClear, highClear, high⟩ } : State) []) := by
  have hcapacity : ((s.lease i).any fun l => decide (l.capacity < high)) =
      ((s.lease i).map fun l => l.capacity).any fun c => decide (c < high) := by
    cases s.lease i <;> rfl
  rw [hcapacity, ← unlessRefused_setMarks]
  rfl

theorem exec_setMarks_offered {s : State} {tag : Byte} {i low lowClear highClear high : Nat} (hi : i < 256)
    (hl : low < 65536) (hlc : lowClear < 65536) (hhc : highClear < 65536) (hh : high < 65536)
    (h : Offered s .yard 0x2E tag (be 1 i ++ be 2 low ++ be 2 lowClear ++ be 2 highClear ++ be 2 high)) :
    exec (.setMarks .yard) s =
      .next (deliver .yard (unlessRefused (s.judged .yard)
        [(decide (11 < i), .refused .range 1 0xFF), (decide (s.set i = none), .refused .absent 1 0xFF),
          (decide (lowClear ≤ low), .refused .range 3 0xFF), (decide (highClear ≤ lowClear), .refused .range 4 0xFF),
          (decide (high ≤ highClear) || (s.lease i).any fun l => decide (l.capacity < high), .refused .range 5 0xFF)]
        (done ({ s.judged .yard with marks := s.marks.set i ⟨low, lowClear, highClear, high⟩ } : State) []))).transmit := by
  rw [exec_of_fields (row := .setMarks) (owner := ownSetMarks) rfl h rfl
    [(1, i), (2, low), (2, lowClear), (2, highClear), (2, high)] rfl (by simp [*]) (by simp [encodeFields])]
  simp only [List.map_cons, List.map_nil, ownSetMarks_eq]
  rfl

/-- Settles O28: the requests by their checks. -/
theorem leasesAlarmsAndMarks : Obligations.LeasesAlarmsAndMarks := by
  refine ⟨⟨?_, ?_⟩, ?_, ?_⟩
  · intro s tag i vendor hire rating capacity declared warmUp coolDown hi hv hh hr hc hd hw hcd payload h t
    have hexec := exec_leaseSet_offered hi hv hh hr hc hd hw hcd h
    rw [ownLeaseSet_eq] at hexec
    exact firstDecides_of (fun x => exec (.leaseSet .office) s = .next (deliver .office x).transmit) hexec
  · intro s tag i hi h t counted
    obtain ⟨hrefused, haccepted⟩ := firstDecides_of
      (fun x => exec (.releaseSet .office) s = .next (deliver .office x).transmit) (exec_releaseSet_offered hi h)
    refine ⟨hrefused, fun hnone => ?_⟩
    have hlease := hnone (decide (s.lease i = none), .refused .notLeased 1 0xFF) (by simp)
    obtain ⟨l, hl⟩ := Option.ne_none_iff_exists'.1 (of_decide_eq_false hlease)
    refine ⟨l, hl, ?_⟩
    rw [haccepted hnone, hl]
    rfl
  · intro s tag i hi h t
    obtain ⟨hrefused, haccepted⟩ :=
      firstDecides_of (fun x => exec (.ackAlarms .yard) s = .next (deliver .yard x).transmit) (exec_ackAlarms_offered hi h)
    refine ⟨hrefused, fun hnone => ?_⟩
    obtain ⟨r, hr⟩ := State.exists_set (hnone (decide (s.set i = none), .refused .absent 1 0xFF) (by simp))
    refine ⟨r, hr, ?_⟩
    rw [haccepted hnone, hr, Option.bind_some]
    cases r.report <;> rfl
  · intro s tag i low lowClear highClear high hi hl hlc hhc hh payload h t
    exact firstDecides_of (fun x => exec (.setMarks .yard) s = .next (deliver .yard x).transmit)
      (exec_setMarks_offered hi hl hlc hhc hh h)

end Sys2Proof.Machine
end

section
/-! PROOFS. READ SET (05). -/

namespace Sys2Proof.Machine

theorem exec_readSet_offered {s : State} {p : Port} {tag : Byte} {i : Nat} (hi : i < 256)
    (h : Offered s p 0x2F tag (be 1 i)) :
    exec (.readSet p) s =
      .next (deliver p (unlessRefused (s.judged p)
        [(decide (11 < i), .refused .range 1 0xFF), (decide (s.set i = none), .refused .absent 1 0xFF)]
        (done (s.judged p) ((s.judged p).setData i ((s.set i).getD .fresh))))).transmit := by
  rw [exec_of_fields (row := .readSet) (owner := ownReadSet) rfl h (by cases p <;> rfl) [(1, i)] rfl (by simp [hi])
    (by simp [encodeFields]), ownReadSet, setChecks_eq]
  simp only [State.set, State.judged_sets]
  rfl

/-- R95: what READ SET shows is read of the sets, the marks and the deliveries alone. -/
theorem State.setData_judged (s : State) (p : Port) (i : Nat) (r : SetRecord) :
    (s.judged p).setData i r = s.setData i r := by
  simp only [setData, deliveryOpen, channelTo, judged_deliveries, marksOf, judged_marks, rateInUse, lease, set, judged_sets]

/-! ### The four parts of the data -/

/-- R95: the state of the set and the flags. -/
def State.setHead (s : State) (i : Nat) (r : SetRecord) : List Byte :=
  be 1 i ++ be 1 r.state.name.value ++ be 1 r.state.previousValue ++ be 1 r.state.causeValue ++
    be 1 r.state.attemptValue ++ be 1 (r.flags (s.deliveryOpen i))

/-- R95: the latch, the reference and the marks. -/
def State.setMiddle (s : State) (i : Nat) (r : SetRecord) : List Byte :=
  [r.snapshot] ++ be 2 (r.reference.getD 0) ++ (s.marksOf i).bytes ++ be 1 (flag r.lease.isSome)

theorem State.setData_eq (s : State) (i : Nat) (r : SetRecord) :
    s.setData i r = s.setHead i r ++ setReportBytes r.report ++ s.setMiddle i r ++ leaseBytes (s.rateInUse i) r.lease := by
  simp only [setData, setHead, setMiddle, List.append_assoc]

theorem flagBits_eight (a b c d e f g h : Bool) :
    flagBits [a, b, c, d, e, f, g, h] =
      flag a + 2 * flag b + 4 * flag c + 8 * flag d + 16 * flag e + 32 * flag f + 64 * flag g + 128 * flag h := by
  simp only [flagBits]
  omega

theorem length_setReportBytes (x : Option SetReport) : (setReportBytes x).length = 14 := by
  cases x <;> simp [setReportBytes, Stamp.bytes]

theorem leaseBytes_some (rate : Nat) (l : Lease) :
    leaseBytes rate (some l) =
      be 2 l.vendor ++ be 4 l.hire ++ be 2 l.rating ++ be 2 l.capacity ++ be 2 l.declared ++ be 2 l.warmUp ++
        be 2 l.coolDown ++ l.stamp.bytes ++
        be 4 l.total.runtime.toNat ++ be 4 l.current.runtime.toNat ++
        be 4 l.total.burned.toNat ++ be 4 l.current.burned.toNat ++
        be 4 l.total.energy.toNat ++ be 4 l.current.energy.toNat ++
        be 2 l.total.starts.toNat ++ be 2 l.current.starts.toNat ++
        be 2 l.total.gaps.toNat ++ be 2 l.current.gaps.toNat ++
        be 1 (flag l.measured.isSome) ++ be 2 (l.measured.getD 0) ++ be 4 l.windowBurn ++ be 4 l.windowEnergy ++
        be 2 rate := by
  unfold leaseBytes
  rfl

theorem length_leaseBytes (rate : Nat) (x : Option Lease) : (leaseBytes rate x).length = 65 := by
  cases x with
  | none => exact List.length_replicate
  | some l => simp only [leaseBytes_some, Stamp.bytes, List.length_append, length_be]

theorem State.rateInUse_of_set {s : State} {i : Nat} {r : SetRecord} (h : s.set i = some r) :
    s.rateInUse i = r.lease.elim 0 fun l => l.measured.getD l.declared := by
  rw [rateInUse, lease, h, Option.bind_some]

/-- Settles O29: the two checks, then the four parts of the data. -/
theorem setsAreRead : Obligations.SetsAreRead := by
  intro s p tag i hi h t
  have hexec := exec_readSet_offered hi h
  refine ⟨fun hhigh => ?_, fun hlow hno => ?_, fun r hlow hr => ⟨s.setHead i r, setReportBytes r.report, s.setMiddle i r,
    leaseBytes (s.rateInUse i) r.lease, ?_, ?_, ?_, ?_, ?_, ?_⟩⟩
  · rw [hexec, unlessRefused_cons, decide_eq_true hhigh]
    rfl
  · rw [hexec, unlessRefused_cons, decide_eq_false (Nat.not_lt.2 hlow), unlessRefused_cons, decide_eq_true hno]
    rfl
  · have hsome : s.set i ≠ none := by rw [hr]; exact Option.some_ne_none r
    rw [hexec, unlessRefused_cons, decide_eq_false (Nat.not_lt.2 hlow), unlessRefused_cons, decide_eq_false hsome,
      unlessRefused_nil, hr, State.setData_judged, ← State.setData_eq]
    rfl
  · have hresting : flag r.state.resting = match r.state with | .cranking _ .rest => 1 | _ => 0 := by
      rcases r.state with _ | _ | ⟨_, _ | _⟩ | _ | _ | _ | _ | _ <;> rfl
    rw [State.setHead, SetRecord.flags, flagBits_eight, hresting, State.deliveryOpen_eq]
    congr 1
    rcases r.state with _ | _ | _ | _ | _ | _ | ⟨_ | _⟩ | ⟨_ | _⟩ <;> rfl
  · cases r.report with
    | none => rfl
    | some x =>
      simp only [setReportBytes, Stamp.bytes, List.append_assoc]
      cases x.engine <;> rfl
  · simp only [State.setMiddle, Marks.bytes, List.append_assoc]
  · rw [State.rateInUse_of_set hr]
    cases r.lease with
    | none => rfl
    | some l => simp only [leaseBytes_some, Stamp.bytes, ← List.append_assoc, Option.elim_some]
  · simp [State.setHead, State.setMiddle, Marks.bytes, length_setReportBytes, length_leaseBytes]

end Sys2Proof.Machine
end

section
/-! PROOFS. SET reports (05): the state they lead to, and what they measure. -/

namespace Sys2Proof.Machine

/-! ### Starts and gaps counted -/

/-- R72, R76: counters with some starts and gaps more. -/
def Counters.counted (c : Counters) (start gap : Nat) : Counters :=
  { c with
    starts := BitVec.ofNat 16 (min (c.starts.toNat + start) 65535)
    gaps := BitVec.ofNat 16 (min (c.gaps.toNat + gap) 65535) }

theorem ofNat_min_toNat (x : BitVec 16) : BitVec.ofNat 16 (min (x.toNat + 0) 65535) = x := by
  have : min (x.toNat + 0) 65535 = x.toNat := by have := x.isLt; omega
  rw [this, BitVec.ofNat_toNat, BitVec.setWidth_eq]

theorem Counters.counted_zero (c : Counters) : c.counted 0 0 = c := by
  rw [counted, ofNat_min_toNat, ofNat_min_toNat]

theorem Counters.gap_counted (c : Counters) : (c.counted 0 0).gap = c.counted 0 1 := by
  rw [counted_zero, counted, ofNat_min_toNat]
  rfl

theorem Counters.start_counted (c : Counters) (gap : Nat) : (c.counted 0 gap).start = c.counted 1 gap := by
  rw [counted, ofNat_min_toNat]
  rfl

/-! ### The record that engine work leaves -/

/-- R70, step 1: engine work on set `i`, whose record was `r`, has led from `s` to `u`: its state is then `q`, its lease has
counted some starts and gaps, and what reports measure is as it was. -/
structure State.JudgedTo (s : State) (i : Nat) (r : SetRecord) (u : State) (q : EngineState) (start gap : Nat) : Prop where
  record : ∃ p, u.set i = some p ∧ p.state.name = q ∧
    p.lease = (r.lease.map fun l => l.count fun c => c.counted start gap) ∧ p.report = r.report ∧
    p.reference = r.reference ∧ p.fuelLow = r.fuelLow ∧ p.snapshot = r.snapshot ∧ p.latchHeld = r.latchHeld
  deliveries : u.deliveries = s.deliveries
  marks : u.marks = s.marks

namespace State.JudgedTo

variable {s u : State} {i : Nat} {r : SetRecord} {q : EngineState} {start gap : Nat}

theorem refl (h : s.set i = some r) : s.JudgedTo i r s r.state.name 0 0 where
  record := ⟨r, h, rfl, by cases r.lease <;> simp [Lease.count, Counters.counted_zero], rfl, rfl, rfl, rfl, rfl⟩
  deliveries := rfl
  marks := rfl

/-- A change of the line and of what is told leaves the record. -/
theorem line (h : s.JudgedTo i r u q start gap) {v : State} (hv : ∃ (l : Line) (m : List Told), v = { u with line := l, told := m }) :
    s.JudgedTo i r v q start gap := by
  obtain ⟨l, m, rfl⟩ := hv
  exact ⟨h.record, h.deliveries, h.marks⟩

theorem enterSet (h : s.JudgedTo i r u q start gap) (q' : SetState) :
    s.JudgedTo i r (u.enterSet i q') q'.name start gap := by
  obtain ⟨⟨p, hp, -, hl, hrest⟩, hd, hm⟩ := h
  rw [enterSet_of_set hp]
  refine ⟨⟨{ p with state := q', clearPending := false, startPending := false, timer := none, awaited := none }, ?_, rfl, hl,
    hrest⟩, ?_, ?_⟩
  · rw [State.set, tell_sets, post_sets]
    exact set_withSet hp _
  · rw [tell_deliveries, post_deliveries]; exact hd
  · rw [tell_marks, post_marks]; exact hm

/-- A change of the pending marks, the timer and the awaited command. -/
theorem changeSet (h : s.JudgedTo i r u q start gap) {f : SetRecord → SetRecord}
    (hf : ∀ p, (f p).state = p.state ∧ (f p).lease = p.lease ∧ (f p).report = p.report ∧ (f p).reference = p.reference ∧
      (f p).fuelLow = p.fuelLow ∧ (f p).snapshot = p.snapshot ∧ (f p).latchHeld = p.latchHeld) :
    s.JudgedTo i r (u.changeSet i f) q start gap := by
  obtain ⟨⟨p, hp, hq, hl, h1, h2, h3, h4, h5⟩, hd, hm⟩ := h
  obtain ⟨g1, g2, g3, g4, g5, g6, g7⟩ := hf p
  refine ⟨⟨f p, set_changeSet_of_set hp f, ?_, g2.trans hl, g3.trans h1, g4.trans h2, g5.trans h3, g6.trans h4,
    g7.trans h5⟩, hd, hm⟩
  rw [g1, hq]

theorem startSetTimer (h : s.JudgedTo i r u q start gap) (k : SetTimerKind) (n : Nat) :
    s.JudgedTo i r (u.startSetTimer i k n) q start gap :=
  h.changeSet fun _ => ⟨rfl, rfl, rfl, rfl, rfl, rfl, rfl⟩

theorem offer (h : s.JudgedTo i r u q start gap) (o : Order) (object : Nat) (k : Rank) :
    s.JudgedTo i r (u.offer o object k) q start gap := h.line (u.offer_frame o object k)

theorem recalled (h : s.JudgedTo i r u q start gap) (n : Nat) : s.JudgedTo i r (u.recall n) q start gap := by
  obtain ⟨l, m, hv, -, -⟩ := u.recall_frame n
  exact h.line ⟨l, m, hv⟩

theorem recallAwaited (h : s.JudgedTo i r u q start gap) : s.JudgedTo i r (u.recallAwaited i) q start gap := by
  unfold State.recallAwaited
  split
  · exact h.recalled _
  · exact h

theorem recallEngine (h : s.JudgedTo i r u q start gap) : s.JudgedTo i r (u.recallEngine i) q start gap :=
  h.line (foldl_recall_frame _ u)

theorem faultSet (h : s.JudgedTo i r u q start gap) (cause : FaultCause) :
    s.JudgedTo i r (u.faultSet i cause) .faulted start gap := by
  have hleft : s.JudgedTo i r (if (u.setStateOf i).elim false EngineState.recallsOnFault then u.recallEngine i else u) q
      start gap := by
    split
    · exact h.recallEngine
    · exact h
  have hfaulted := hleft.enterSet (.faulted cause)
  simp only [State.faultSet]
  generalize (if (u.setStateOf i).elim false EngineState.recallsOnFault then u.recallEngine i else u) = v at *
  split
  · exact hfaulted.offer _ _ _
  · exact hfaulted

theorem crankingSeen (h : s.JudgedTo i r u q start gap) : s.JudgedTo i r (u.crankingSeen i) .cranking start gap :=
  (h.enterSet (.cranking 1 .crank)).startSetTimer _ _

theorem startFromStopped (h : s.JudgedTo i r u q start gap) :
    s.JudgedTo i r (u.startFromStopped i) .cranking start gap := by
  have hawaits := (h.enterSet (.cranking 1 .crank)).changeSet
    (f := fun r => { r with awaited := some (u.enterSet i (.cranking 1 .crank)).line.nextSerial })
    fun _ => ⟨rfl, rfl, rfl, rfl, rfl, rfl, rfl⟩
  exact hawaits.offer .startEngine i .routine

/-- Counting on the lease. -/
theorem count (h : s.JudgedTo i r u q start gap) {f : Counters → Counters} {start' gap' : Nat}
    (hf : ∀ c : Counters, f (c.counted start gap) = c.counted start' gap') :
    s.JudgedTo i r (u.changeSet i fun p => p.count f) q start' gap' := by
  obtain ⟨⟨p, hp, hq, hl, hrest⟩, hd, hm⟩ := h
  refine ⟨⟨p.count f, set_changeSet_of_set hp _, hq, ?_, hrest⟩, hd, hm⟩
  rw [SetRecord.count, hl, Option.map_map]
  refine congrArg (fun g => r.lease.map g) (funext fun l => ?_)
  simp only [Function.comp, Lease.count, hf]

theorem warmSet (h : s.JudgedTo i r u q 0 gap) : s.JudgedTo i r (u.warmSet i) .warming 1 gap := by
  obtain ⟨p, hp, -⟩ := h.record
  rw [State.warmSet, hp]
  exact ((h.enterSet .warming).startSetTimer _ _).count fun c => c.start_counted gap

theorem reachStopped (h : s.JudgedTo i r u q start gap) (pending : Bool)
    (hp : (u.set i).elim false (fun p => p.startPending) = pending) :
    s.JudgedTo i r (u.reachStopped i) (if pending then .cranking else .stopped) start gap := by
  simp only [State.reachStopped, hp]
  have hstopped := h.recallAwaited.enterSet .stopped
  split
  · exact hstopped.startFromStopped
  · exact hstopped

end State.JudgedTo

/-! ### The state a report leads to -/

/-- R72, R74: the state that a report of an engine leads to. -/
def State.stateAfter (s : State) (i : Nat) (r : SetRecord) (e : Engine) : EngineState :=
  match r.state, e with
  | .stopped, .off => .stopped
  | .stopped, .cranking => .cranking
  | .stopped, .running => .warming
  | .cranking _ .crank, .running => .warming
  | .cranking _ .rest, .running => if r.timer.isSome || s.awaitsUncommitted i then .warming else .cranking
  | .cranking _ _, .off => .cranking
  | .cranking _ _, .cranking => .cranking
  | .warming, .running => .warming
  | .warming, .off => .faulted
  | .warming, .cranking => .faulted
  | .online, .running => .online
  | .online, .off => .faulted
  | .online, .cranking => .faulted
  | .cooling, .off => if r.startPending then .cranking else .stopped
  | .cooling, .cranking => .cooling
  | .cooling, .running => .cooling
  | .faulted _, _ => .faulted
  | _, .shutdown => .faulted
  | .lost .cranking, .running => if s.feeding i then .online else .warming
  | _, .running => .online
  | _, .off => if s.feeding i then .faulted else .stopped
  | _, .cranking => if s.feeding i then .faulted else .cranking

/-- R72: the state by the engine alone. -/
def State.resyncedTo (s : State) (i : Nat) (e : Engine) (cranked : Bool) : EngineState :=
  match e with
  | .running => if cranked && !s.feeding i then .warming else .online
  | .off => if s.feeding i then .faulted else .stopped
  | .shutdown => .faulted
  | .cranking => if s.feeding i then .faulted else .cranking

theorem State.JudgedTo.resyncSet {s u : State} {i : Nat} {r : SetRecord} {q : EngineState} {gap : Nat}
    (h : s.JudgedTo i r u q 0 gap) (hfeeding : u.feeding i = s.feeding i) (e : Engine) (cranked : Bool) :
    s.JudgedTo i r (u.resyncSet i e cranked) (s.resyncedTo i e cranked)
      (if s.resyncedTo i e cranked = .warming then 1 else 0) gap := by
  cases e with
  | shutdown => exact h.faultSet .shutdown
  | off =>
    simp only [State.resyncSet, resyncedTo, hfeeding]
    split
    · exact h.faultSet .offWhileFeeding
    · exact h.enterSet .stopped
  | cranking =>
    simp only [State.resyncSet, resyncedTo, hfeeding]
    split
    · exact h.faultSet .offWhileFeeding
    · exact h.crankingSeen
  | running =>
    simp only [State.resyncSet, resyncedTo, hfeeding]
    split
    · exact h.warmSet
    · exact h.enterSet .online

/-- R72: whether a report of RUNNING counts a gap. -/
def SetRecord.ranBefore (r : SetRecord) (e : Engine) : Bool :=
  e == .running && (r.report.elim false fun x => x.engine == .running)

theorem SetRecord.ranBefore_iff (r : SetRecord) (e : Engine) :
    r.ranBefore e = true ↔ e = .running ∧ ∃ y, r.report = some y ∧ y.engine = .running := by
  cases h : r.report <;> simp [ranBefore, h]

/-- R70, step 1: the state and the counters that a report leads to. -/
theorem State.judgedTo_judgeEngine {s : State} {i : Nat} {r : SetRecord} (h : s.set i = some r) (e : Engine) :
    s.JudgedTo i r (s.judgeEngine i r e) (s.stateAfter i r e)
      (if r.state.name ≠ .warming ∧ s.stateAfter i r e = .warming then 1 else 0)
      (if r.state.name = .lost ∧ r.ranBefore e = true then 1 else 0) := by
  have hsame := JudgedTo.refl h
  cases hr : r.state with
  | unknown =>
    have hresync := hsame.resyncSet rfl e false
    have hafter : s.stateAfter i r e = s.resyncedTo i e false := by
      simp only [stateAfter, resyncedTo, hr]
      cases e <;> rfl
    simpa [judgeEngine, hr, hafter, SetState.name] using hresync
  | lost previous =>
    have hafter : s.stateAfter i r e = s.resyncedTo i e (previous == .cranking) := by
      simp only [stateAfter, resyncedTo, hr]
      cases e <;> cases previous <;> cases s.feeding i <;> rfl
    have hjudge : s.judgeEngine i r e =
        (if r.ranBefore e then s.changeSet i fun r => r.count Counters.gap else s).resyncSet i e
          (previous == .cranking) := by
      simp only [judgeEngine, hr]
      rfl
    by_cases hran : r.ranBefore e = true
    · have hgap := hsame.count (f := Counters.gap) fun c => c.gap_counted
      have hresync := hgap.resyncSet rfl e (previous == .cranking)
      simpa [hjudge, hafter, SetState.name, hran] using hresync
    · have hresync := hsame.resyncSet rfl e (previous == .cranking)
      simpa [hjudge, hafter, SetState.name, hran] using hresync
  | stopped =>
    cases e with
    | off => simpa [judgeEngine, stateAfter, hr, SetState.name] using hsame
    | cranking => simpa [judgeEngine, stateAfter, hr, SetState.name] using hsame.crankingSeen
    | running => simpa [judgeEngine, stateAfter, hr, SetState.name] using hsame.warmSet
    | shutdown => simpa [judgeEngine, stateAfter, hr, SetState.name] using hsame.faultSet .shutdown
  | cranking n phase =>
    cases e with
    | off => simpa [judgeEngine, stateAfter, hr, SetState.name] using hsame
    | cranking => simpa [judgeEngine, stateAfter, hr, SetState.name] using hsame
    | shutdown => simpa [judgeEngine, stateAfter, hr, SetState.name] using hsame.faultSet .shutdown
    | running =>
      have hwarm := hsame.recallAwaited.warmSet
      cases phase with
      | crank => simpa [judgeEngine, stateAfter, hr, SetState.name, runningInCranking] using hwarm
      | rest =>
        by_cases htimed : r.timer.isSome = true ∨ s.awaitsUncommitted i = true
        · simpa [judgeEngine, stateAfter, hr, SetState.name, runningInCranking, htimed] using hwarm
        · simpa [judgeEngine, stateAfter, hr, SetState.name, runningInCranking, htimed] using hsame
  | warming =>
    cases e with
    | off => simpa [judgeEngine, stateAfter, hr, SetState.name] using hsame.faultSet .stoppedLocally
    | cranking => simpa [judgeEngine, stateAfter, hr, SetState.name] using hsame.faultSet .stoppedLocally
    | running => simpa [judgeEngine, stateAfter, hr, SetState.name] using hsame
    | shutdown => simpa [judgeEngine, stateAfter, hr, SetState.name] using hsame.faultSet .shutdown
  | online =>
    cases e with
    | off => simpa [judgeEngine, stateAfter, hr, SetState.name] using hsame.faultSet .stoppedLocally
    | cranking => simpa [judgeEngine, stateAfter, hr, SetState.name] using hsame.faultSet .stoppedLocally
    | running => simpa [judgeEngine, stateAfter, hr, SetState.name] using hsame
    | shutdown => simpa [judgeEngine, stateAfter, hr, SetState.name] using hsame.faultSet .shutdown
  | cooling =>
    cases e with
    | off =>
      have hstopped := hsame.reachStopped r.startPending (by rw [h]; rfl)
      cases hp : r.startPending <;> simpa [judgeEngine, stateAfter, hr, SetState.name, hp] using hstopped
    | cranking => simpa [judgeEngine, stateAfter, hr, SetState.name] using hsame
    | running => simpa [judgeEngine, stateAfter, hr, SetState.name] using hsame
    | shutdown => simpa [judgeEngine, stateAfter, hr, SetState.name] using hsame.faultSet .shutdown
  | faulted cause => cases e <;> simpa [judgeEngine, stateAfter, hr, SetState.name] using hsame

end Sys2Proof.Machine
end

section
/-! PROOFS. What a SET report does to a set record (05). -/

namespace Sys2Proof.Machine

/-! ### What the judgement of the engine does -/

/-- Counting on the lease of a set. -/
def State.counting (i : Nat) (f : Counters → Counters) (u : State) : State :=
  u.changeSet i fun q => { q with lease := q.lease.map fun l => { l with total := f l.total, current := f l.current } }

/-- R76: a set becomes WARMING for the warm-up time of a lease. -/
def State.warmed (i : Nat) (lease : Option Lease) (u : State) : State :=
  State.counting i (fun c => { c with starts := BitVec.ofNat 16 (min (c.starts.toNat + 1) 65535) })
    ((u.enterSet i .warming).changeSet i fun q =>
      { q with timer := some ⟨.warmUp, 10 * (match lease with | some l => l.warmUp | none => 120)⟩ })

theorem State.warmSet_of_set {u : State} {i : Nat} {p r : SetRecord} (h : u.set i = some p)
    (hl : p.warmUpTenths = r.warmUpTenths) : u.warmSet i = State.warmed i r.lease u := by
  have htenths : r.warmUpTenths = 10 * (match r.lease with | some l => l.warmUp | none => 120) := by
    rw [SetRecord.warmUpTenths]
    cases r.lease <;> rfl
  simp only [warmSet, h, hl, htenths]
  rfl

theorem State.set_of_line {s u : State} {i : Nat} {r : SetRecord} (h : s.set i = some r)
    (hu : ∃ (l : Line) (m : List Told), u = { s with line := l, told := m }) : u.set i = some r := by
  obtain ⟨l, m, rfl⟩ := hu
  exact h

theorem State.recallAwaited_of_set {s : State} {i : Nat} {r : SetRecord} (h : s.set i = some r) :
    s.recallAwaited i = match r.awaited with | some n => s.recall n | none => s := by
  cases ha : r.awaited <;> simp [recallAwaited, h, ha]

theorem State.recallAwaited_frame (s : State) (i : Nat) :
    ∃ (l : Line) (m : List Told), s.recallAwaited i = { s with line := l, told := m } := by
  unfold recallAwaited
  split
  next n _ =>
    obtain ⟨l, m, h, -, -⟩ := s.recall_frame n
    exact ⟨l, m, h⟩
  next => exact ⟨s.line, s.told, rfl⟩

/-- R72: what resynchronizing does to a set whose record has the lease times of `r`. -/
theorem State.resyncSet_of_set {s u : State} {i : Nat} {p r : SetRecord} (h : u.set i = some p)
    (hl : p.warmUpTenths = r.warmUpTenths) (hfeeding : u.feeding i = s.feeding i) (e : Engine) (cranked : Bool) :
    u.resyncSet i e cranked =
      match e with
      | .running => if cranked && !s.feeding i then State.warmed i r.lease u else u.enterSet i .online
      | .off => if s.feeding i then u.faultSet i .offWhileFeeding else u.enterSet i .stopped
      | .cranking =>
        if s.feeding i then u.faultSet i .offWhileFeeding
        else (u.enterSet i (.cranking 1 .crank)).changeSet i fun q => { q with timer := some ⟨.crank, 150⟩ }
      | .shutdown => u.faultSet i .shutdown := by
  cases e <;> simp only [resyncSet, hfeeding, warmSet_of_set h hl] <;> rfl

theorem SetRecord.warmUpTenths_count (r : SetRecord) (f : Counters → Counters) :
    (r.count f).warmUpTenths = r.warmUpTenths := by
  cases h : r.lease <;> simp [warmUpTenths, count, h, Lease.count]

/-- R70, step 1: what the judgement of the engine does, state by state. -/
theorem State.judgeEngine_eq {s : State} {i : Nat} {r : SetRecord} (e : Engine) (h : s.set i = some r) :
    let recalled := match r.awaited with | some n => s.recall n | none => s
    let cranked := fun u : State =>
      (u.enterSet i (.cranking 1 .crank)).changeSet i fun q => { q with timer := some ⟨.crank, 150⟩ }
    let found := fun (u : State) (wasCranking : Bool) =>
      match e with
      | .running => if wasCranking && !s.feeding i then State.warmed i r.lease u else u.enterSet i .online
      | .off => if s.feeding i then u.faultSet i .offWhileFeeding else u.enterSet i .stopped
      | .cranking => if s.feeding i then u.faultSet i .offWhileFeeding else cranked u
      | .shutdown => u.faultSet i .shutdown
    s.judgeEngine i r e =
      match r.state, e with
      | .unknown, _ => found s false
      | .lost q, _ =>
        found
          (if decide (e = .running) && r.report.any fun y => decide (y.engine = .running) then
            State.counting i (fun c => { c with gaps := BitVec.ofNat 16 (min (c.gaps.toNat + 1) 65535) }) s
          else s) (decide (q = .cranking))
      | .faulted _, _ => s
      | _, .shutdown => s.faultSet i .shutdown
      | .stopped, .cranking => cranked s
      | .stopped, .running => State.warmed i r.lease s
      | .cranking _ p, .running =>
        if decide (p = .crank) || r.timer.isSome || s.awaitsUncommitted i then State.warmed i r.lease recalled else s
      | .warming, .off => s.faultSet i .stoppedLocally
      | .warming, .cranking => s.faultSet i .stoppedLocally
      | .online, .off => s.faultSet i .stoppedLocally
      | .online, .cranking => s.faultSet i .stoppedLocally
      | .cooling, .off =>
        let stopped := recalled.enterSet i .stopped
        if r.startPending then stopped.startFromStopped i else stopped
      | _, _ => s := by
  intro recalled cranked found
  have hrecalled : s.recallAwaited i = recalled := by
    cases ha : r.awaited <;> simp [recallAwaited, h, ha, recalled]
  have hwarm : s.warmSet i = State.warmed i r.lease s := warmSet_of_set h rfl
  have hwarmRecalled : recalled.warmSet i = State.warmed i r.lease recalled :=
    warmSet_of_set (hrecalled ▸ set_of_line h (s.recallAwaited_frame i)) rfl
  have hfound (wasCranking : Bool) : s.resyncSet i e wasCranking = found s wasCranking :=
    (resyncSet_of_set h rfl rfl e wasCranking).trans (by cases e <;> rfl)
  cases hr : r.state with
  | unknown => simp only [judgeEngine, hr, hfound]
  | lost previous =>
    have hjudge : s.judgeEngine i r e =
        (if r.ranBefore e then s.changeSet i fun r => r.count Counters.gap else s).resyncSet i e
          (previous == .cranking) := by
      simp only [judgeEngine, hr]
      rfl
    have hran : r.ranBefore e = (decide (e = .running) && r.report.any fun y => decide (y.engine = .running)) := by
      cases hx : r.report <;> simp only [SetRecord.ranBefore, hx] <;> rfl
    have hcounting (u : State) : (u.changeSet i fun r => r.count Counters.gap) =
        State.counting i (fun c => { c with gaps := BitVec.ofNat 16 (min (c.gaps.toNat + 1) 65535) }) u := rfl
    rw [hjudge, hran, hcounting]
    split
    · exact (resyncSet_of_set (set_changeSet_of_set h _) (r.warmUpTenths_count Counters.gap) rfl e _).trans (by cases e <;> rfl)
    · exact (resyncSet_of_set h rfl rfl e _).trans (by cases e <;> rfl)
  | stopped => cases e <;> simp only [judgeEngine, hr, hwarm] <;> rfl
  | cranking n phase =>
    cases e with
    | running =>
      simp only [judgeEngine, hr, runningInCranking, hrecalled, hwarmRecalled]
      rfl
    | off => simp only [judgeEngine, hr]
    | cranking => simp only [judgeEngine, hr]
    | shutdown => simp only [judgeEngine, hr]
  | warming => cases e <;> simp only [judgeEngine, hr]
  | online => cases e <;> simp only [judgeEngine, hr]
  | cooling =>
    cases e with
    | off =>
      simp only [judgeEngine, hr, reachStopped, hrecalled, h, Option.elim_some]
    | cranking => simp only [judgeEngine, hr]
    | running => simp only [judgeEngine, hr]
    | shutdown => simp only [judgeEngine, hr]
  | faulted cause => cases e <;> simp only [judgeEngine, hr]

/-! ### Fuel, fuel-low and alarms -/

theorem lowFuelSwitch_eq (x : Byte) : lowFuelSwitch x = x.getLsbD 4 := bitOf_eq_testBit _ _

theorem State.judgeFuel_of_set {s : State} {i : Nat} {r : SetRecord} (h : s.set i = some r) (x : SetReport) :
    s.judgeFuel i x =
      match r.reference with
      | some f =>
        if s.deliveryOpen i = false ∧ f + 100 < x.level then
          (s.changeSet i fun q => q.measure x (s.deliveryOpen i)).post .unexplainedRise (be 1 i ++ be 2 f ++ be 2 x.level)
        else s.changeSet i fun q => q.measure x (s.deliveryOpen i)
      | none => s.changeSet i fun q => q.measure x (s.deliveryOpen i) := by
  simp only [judgeFuel, h]
  cases hf : r.reference with
  | none => cases s.deliveryOpen i <;> rfl
  | some f =>
    have hrise : unexplained (some f) x.level = if f + 100 < x.level then some f else none := by
      simp only [unexplained, Option.filter_some, decide_eq_true_eq]
    cases s.deliveryOpen i with
    | true => rfl
    | false => by_cases hlevel : f + 100 < x.level <;> simp [hrise, hlevel]

theorem State.judgeFuelLow_of_set {s : State} {i : Nat} {r : SetRecord} (h : s.set i = some r) (x : SetReport) :
    s.judgeFuelLow i x =
      if r.fuelLow = false ∧ (x.level < (s.marksOf i).low ∨ x.alarm.getLsbD 4 = true) then
        ((s.changeSet i fun q => { q with fuelLow := true }).post .fuelLow
          (be 1 i ++ be 2 x.level ++ be 1 (flag (x.alarm.getLsbD 4)))).tell (.fuelLowRaised i [])
      else if r.fuelLow = true ∧ (s.marksOf i).lowClear ≤ x.level ∧ x.alarm.getLsbD 4 = false then
        ((s.changeSet i fun q => { q with fuelLow := false }).post .fuelLowClear
          (be 1 i ++ be 2 x.level)).tell (.fuelLowCleared i)
      else s := by
  simp only [judgeFuelLow, h, lowFuelSwitch_eq, Bool.and_eq_true, Bool.or_eq_true, Bool.not_eq_true', decide_eq_true_eq,
    and_assoc]

theorem State.judgeAlarm_of_set {s : State} {i : Nat} {r : SetRecord} (h : s.set i = some r) (x : SetReport) :
    s.judgeAlarm i x =
      if x.alarm ≠ r.snapshot ∧ r.latchHeld = false then
        (s.changeSet i fun q => { q with snapshot := x.alarm, latchHeld := true }).post .alarmChange
          (be 1 i ++ [x.alarm, r.snapshot])
      else s := by
  simp only [judgeAlarm, h, Bool.and_eq_true, bne_iff_ne, Bool.not_eq_true']

/-! ### The record after each judgement -/

theorem State.set_judgeFuel {s : State} {i : Nat} {r : SetRecord} (h : s.set i = some r) (x : SetReport) :
    (s.judgeFuel i x).set i = some (r.measure x (s.deliveryOpen i)) ∧ (s.judgeFuel i x).marks = s.marks := by
  have hset := set_changeSet_of_set h fun q => q.measure x (s.deliveryOpen i)
  rw [judgeFuel_of_set h]
  split
  · split
    · exact ⟨by rw [State.set, post_sets]; exact hset, by rw [post_marks]; rfl⟩
    · exact ⟨hset, rfl⟩
  · exact ⟨hset, rfl⟩

theorem State.set_judgeFuelLow {s : State} {i : Nat} {r : SetRecord} (h : s.set i = some r) (x : SetReport) :
    (s.judgeFuelLow i x).set i = some { r with
      fuelLow :=
        if r.fuelLow then !(decide ((s.marksOf i).lowClear ≤ x.level) && !x.alarm.getLsbD 4)
        else decide (x.level < (s.marksOf i).low) || x.alarm.getLsbD 4 } := by
  rw [judgeFuelLow_of_set h]
  split
  next hraise =>
    obtain ⟨hlow, hor⟩ := hraise
    have hvalue : (decide (x.level < (s.marksOf i).low) || x.alarm.getLsbD 4) = true := by simpa using hor
    rw [State.set, tell_sets, post_sets]
    refine (set_changeSet_of_set h _).trans ?_
    simp only [hlow, Bool.false_eq_true, if_false, hvalue]
  next hraise =>
    split
    next hclear =>
      obtain ⟨hlow, hlevel, hswitch⟩ := hclear
      have hvalue : (!(decide ((s.marksOf i).lowClear ≤ x.level) && !x.alarm.getLsbD 4)) = false := by
        rw [hswitch, decide_eq_true hlevel]
        rfl
      rw [State.set, tell_sets, post_sets]
      refine (set_changeSet_of_set h _).trans ?_
      simp only [hlow, if_true, hvalue]
    next hclear =>
      have hsame :
          (if r.fuelLow then !(decide ((s.marksOf i).lowClear ≤ x.level) && !x.alarm.getLsbD 4)
            else decide (x.level < (s.marksOf i).low) || x.alarm.getLsbD 4) = r.fuelLow := by
        cases hlow : r.fuelLow with
        | false =>
          rw [if_neg Bool.false_ne_true, Bool.eq_false_iff, Ne, Bool.or_eq_true, decide_eq_true_eq]
          exact fun hor => hraise ⟨hlow, hor⟩
        | true =>
          rw [if_pos rfl, Bool.not_eq_true', Bool.eq_false_iff, Ne, Bool.and_eq_true, decide_eq_true_eq,
            Bool.not_eq_true']
          exact fun hand => hclear ⟨hlow, hand⟩
      rw [h, hsame]

theorem State.set_judgeAlarm {s : State} {i : Nat} {r : SetRecord} (h : s.set i = some r) (x : SetReport) :
    (s.judgeAlarm i x).set i = some { r with
      snapshot := if r.latchHeld then r.snapshot else x.alarm
      latchHeld := r.latchHeld || x.alarm != r.snapshot } := by
  rw [judgeAlarm_of_set h]
  split
  next hchange =>
    obtain ⟨hne, hheld⟩ := hchange
    rw [State.set, post_sets]
    refine (set_changeSet_of_set h _).trans ?_
    simp [hheld, hne]
  next hchange =>
    have hsnapshot : (if r.latchHeld then r.snapshot else x.alarm) = r.snapshot := by
      split
      · rfl
      next hheld => exact by_contra fun hne => hchange ⟨hne, Bool.eq_false_iff.2 hheld⟩
    have hlatch : (r.latchHeld || x.alarm != r.snapshot) = r.latchHeld := by
      cases hheld : r.latchHeld with
      | true => rfl
      | false =>
        rw [Bool.false_or, bne_eq_false_iff_eq]
        exact by_contra fun hne => hchange ⟨hne, hheld⟩
    rw [h, hsnapshot, hlatch]

/-! ### What is measured -/

theorem SetRecord.measure_frame (r : SetRecord) (x : SetReport) (d : Bool) :
    r.measure x d = { r with reference := (r.measure x d).reference, lease := (r.measure x d).lease } := by
  cases d <;> rfl

theorem SetRecord.measure_reference (r : SetRecord) (x : SetReport) (d : Bool) :
    (r.measure x d).reference =
      some (if d then r.reference.getD x.level else referenceAfter r.reference x.level) := by
  cases d <;> rfl

/-- R89 to R91: the lease, with no delivery open. -/
theorem SetRecord.measure_closed {r : SetRecord} {l : Lease} (h : r.lease = some l) (x : SetReport) :
    (r.measure x false).lease =
      some (((l.count fun c => c.out ((energyDelta r.report x).elim 0 fun d => d.toNat)).count fun c =>
        c.burn (burnOf r.reference x.level)).window (burnOf r.reference x.level)
          ((energyDelta r.report x).elim 0 fun d => d.toNat)) := by
  simp [measure, count, h]

/-- R89, R92: the lease, with a delivery open. -/
theorem SetRecord.measure_open {r : SetRecord} {l : Lease} (h : r.lease = some l) (x : SetReport) :
    (r.measure x true).lease =
      some (l.count fun c => c.out ((energyDelta r.report x).elim 0 fun d => d.toNat)) := by
  simp [measure, count, h]

theorem energyDelta_eq (last : Option SetReport) (x : SetReport) :
    (energyDelta last x).elim 0 (fun d => d.toNat) = match last with | none => 0 | some y => (x.energy - y.energy).toNat := by
  cases last <;> rfl

theorem burnOf_eq (reference : Option Nat) (level : Nat) :
    burnOf reference level = match reference with | none => 0 | some f => f - level := by
  cases reference with
  | none => exact Nat.sub_self level
  | some f => rfl

theorem Lease.window_of_short {l : Lease} {burn energy : Nat} (h : l.windowEnergy + energy < 50000) :
    l.window burn energy = { l with windowBurn := l.windowBurn + burn, windowEnergy := l.windowEnergy + energy } :=
  if_neg (Nat.not_le.2 h)

theorem Lease.window_of_complete {l : Lease} {burn energy : Nat} (h : 50000 ≤ l.windowEnergy + energy) :
    l.window burn energy =
      { l with
        measured := some (max 50 (min 2000 ((l.windowBurn + burn) * 100000 / (l.windowEnergy + energy))))
        windowBurn := 0
        windowEnergy := 0 } :=
  if_pos h

theorem Lease.window_counters (l : Lease) (burn energy : Nat) :
    (l.window burn energy).total = l.total ∧ (l.window burn energy).current = l.current := by
  rcases Nat.lt_or_ge (l.windowEnergy + energy) 50000 with h | h
  · rw [window_of_short h]; exact ⟨rfl, rfl⟩
  · rw [window_of_complete h]; exact ⟨rfl, rfl⟩

/-- R70: the record after a SET report, where `p` is the record that the judgement of the engine leaves. -/
theorem State.set_applySetReport {s : State} {i : Nat} {r p : SetRecord} (x : SetReport) (h : s.set i = some r)
    (hp : (s.judgeEngine i r x.engine).set i = some p)
    (hdeliveries : (s.judgeEngine i r x.engine).deliveries = s.deliveries)
    (hmarks : (s.judgeEngine i r x.engine).marks = s.marks) :
    ∃ q, (s.applySetReport i x).set i = some q ∧ q.report = some x ∧
      q.fuelLow =
        (if p.fuelLow then !(decide ((s.marksOf i).lowClear ≤ x.level) && !x.alarm.getLsbD 4)
          else decide (x.level < (s.marksOf i).low) || x.alarm.getLsbD 4) ∧
      q.snapshot = (if p.latchHeld then p.snapshot else x.alarm) ∧
      q.latchHeld = (p.latchHeld || x.alarm != p.snapshot) ∧
      q = { p.measure x (s.deliveryOpen i) with
        report := q.report, fuelLow := q.fuelLow, snapshot := q.snapshot, latchHeld := q.latchHeld } := by
  have hopen : (s.judgeEngine i r x.engine).deliveryOpen i = s.deliveryOpen i := by
    rw [deliveryOpen, channelTo, hdeliveries]
    rfl
  obtain ⟨hfuel, hfuelMarks⟩ := set_judgeFuel hp x
  have hmarksOf : ((s.judgeEngine i r x.engine).judgeFuel i x).marksOf i = s.marksOf i := by
    rw [marksOf, hfuelMarks, hmarks]
    rfl
  have halarm := set_judgeAlarm (set_judgeFuelLow hfuel x) x
  rw [hopen, hmarksOf] at halarm
  have hframe := SetRecord.measure_frame p x (s.deliveryOpen i)
  refine ⟨_, (congrArg (fun t : State => t.set i) (by rw [applySetReport, h])).trans
    (set_changeSet_of_set halarm fun q => { q with report := some x }), rfl, ?_, ?_, ?_, rfl⟩
  · rw [hframe]
  · rw [hframe]
  · rw [hframe]

/-- Settles O26: the judgement of the engine by the operations it is made of, the other judgements by what they leave of the
record. -/
theorem reportsAreMeasuredAndDecideTheState : Obligations.ReportsAreMeasuredAndDecideTheState := by
  refine ⟨⟨fun q => ⟨by cases q <;> rfl, ?_⟩, fun s i r q h => State.enterSet_of_set h q, fun s i r e h => ?_⟩,
    fun s i r e h => ?_, fun s i r x h => ⟨?_, State.judgeFuel_of_set h x, State.judgeFuelLow_of_set h x,
      State.judgeAlarm_of_set h x⟩, ?_, ?_, fun r x => ⟨fun h d => ?_, fun f h => ⟨?_, ?_⟩⟩, ?_⟩
  · cases q with
    | faulted c => cases c <;> rfl
    | _ => rfl
  · obtain ⟨⟨p, hp, hq, -⟩, -, -⟩ := State.judgedTo_judgeEngine h e
    rw [State.setStateOf_of_set hp, hq]
    rfl
  · exact State.judgeEngine_eq e h
  · rw [State.applySetReport, h]
  · intro r x l h energy burn
    have henergy : (energyDelta r.report x).elim 0 (fun d => d.toNat) = energy := energyDelta_eq r.report x
    have hburn : burnOf r.reference x.level = burn := burnOf_eq r.reference x.level
    let counted := (l.count fun c => c.out energy).count fun c => c.burn burn
    have hlease : (r.measure x false).lease = some (counted.window burn energy) :=
      (SetRecord.measure_closed h x).trans (by rw [henergy, hburn])
    obtain ⟨htotal, hcurrent⟩ := Lease.window_counters counted burn energy
    refine ⟨_, hlease, by rw [SetRecord.measure_frame], ?_, ?_, ?_, ?_, fun hshort => ?_, fun hfull => ?_⟩
    · exact (congrArg (fun c : Counters => c.energy.toNat) htotal).trans (toNat_satAdd _ _)
    · exact (congrArg (fun c : Counters => c.energy.toNat) hcurrent).trans (toNat_satAdd _ _)
    · exact (congrArg (fun c : Counters => c.burned.toNat) htotal).trans (toNat_satAdd _ _)
    · exact (congrArg (fun c : Counters => c.burned.toNat) hcurrent).trans (toNat_satAdd _ _)
    · have hwindow := Lease.window_of_short (l := counted) (burn := burn) hshort
      exact ⟨congrArg Lease.windowBurn hwindow, congrArg Lease.windowEnergy hwindow, (congrArg Lease.measured hwindow :)⟩
    · have hwindow := Lease.window_of_complete (l := counted) (burn := burn) hfull
      exact ⟨congrArg Lease.windowBurn hwindow, congrArg Lease.windowEnergy hwindow, (congrArg Lease.measured hwindow :)⟩
  · intro r x l h energy
    have hlease := SetRecord.measure_open h x
    rw [energyDelta_eq] at hlease
    exact ⟨_, hlease, toNat_satAdd _ _, toNat_satAdd _ _, rfl, rfl, rfl, rfl, rfl⟩
  · rw [SetRecord.measure_reference, h]
    cases d <;> rfl
  · rw [SetRecord.measure_reference, h]
    rfl
  · rw [SetRecord.measure_reference, h]
    rfl
  · intro s i r x h
    obtain ⟨⟨p, hp, hstate, hlease, hreport, hreference, hlow, hsnapshot, hheld⟩, hdeliveries, hmarks⟩ :=
      State.judgedTo_judgeEngine h x.engine
    obtain ⟨q, hq, hqreport, hqlow, hqsnapshot, hqheld, hqframe⟩ := State.set_applySetReport x h hp hdeliveries hmarks
    rw [hlow] at hqlow
    rw [hsnapshot, hheld] at hqsnapshot
    rw [hsnapshot, hheld] at hqheld
    have hframe := SetRecord.measure_frame p x (s.deliveryOpen i)
    refine ⟨p, q, hp, hq, by rw [hqframe, hframe], by rw [hqframe, hframe], by rw [hqframe, hframe],
      by rw [hqframe, hframe], by rw [hqframe, hframe], by rw [hqframe], hreport, hreference,
      fun hnone => by rw [hlease, hnone]; rfl, fun l hl => ?_, hqreport, hqlow, hqsnapshot, hqheld, ?_⟩
    · intro start gap counted
      rw [hlease, hl]
      simp only [SetRecord.ranBefore_iff, ← hstate]
      rfl
    · rw [hqframe, SetRecord.measure_reference, hreference, SetRecord.measure_reference]

end Sys2Proof.Machine
end

section
/-! PROOFS. OPEN DELIVERY and the crew requests on a delivery (06). -/

namespace Sys2Proof.Machine

/-! ### OPEN DELIVERY -/

theorem Line.stationIs_eq (l : Line) (c : StationClass) (object : Nat) (q : StationState) :
    l.stationIs c object q = (l.station c object).any fun st => st.state == q := Option.elim_false_eq_any _ _

theorem Option.elim_true_eq_not_any {α : Type} (o : Option α) (p : α → Bool) : (!o.elim true p) = o.any fun x => !p x := by
  cases o <;> rfl

theorem Line.not_enrolled_eq (l : Line) (c : StationClass) (object : Nat) :
    (!l.enrolled c object) = decide (l.station c object = none) := by
  rw [Option.decide_eq_none_eq_isNone, enrolled, Option.not_isSome]

/-- R99: the delivery that OPEN DELIVERY arms. -/
def State.openedDelivery (s : State) (c ticket supplier i ordered : Nat) : Delivery :=
  ⟨ticket, supplier, i, ordered, ((s.channel c).bind fun x => x.report).elim 0 fun x => x.count, 0, s.levelOf i, 0, 0,
    false, false, false, none, s.now⟩

theorem State.openedDelivery_of_channel {s : State} {c : Nat} {x : Channel} (h : s.channel c = some x)
    (ticket supplier i ordered : Nat) :
    s.openedDelivery c ticket supplier i ordered =
      ⟨ticket, supplier, i, ordered, (match x.report with | some y => y.count | none => 0), 0, s.levelOf i, 0, 0, false, false,
        false, none, ⟨s.clock.day, s.clock.second⟩⟩ := by
  rw [openedDelivery, h, Option.bind_some]
  cases x.report <;> rfl

theorem exec_openDelivery_offered {s : State} {tag : Byte} {c ticket supplier i ordered : Nat} (hc : c < 256)
    (ht : ticket < 4294967296) (hs : supplier < 65536) (hi : i < 256) (ho : ordered < 65536)
    (h : Offered s .yard 0x30 tag (be 1 c ++ be 4 ticket ++ be 2 supplier ++ be 1 i ++ be 2 ordered)) :
    exec (.openDelivery .yard) s =
      .next (deliver .yard (unlessRefused (s.judged .yard)
        [(s.loader.resetDue, .refused .state 0 0xFF),
          (decide (2 < c), .refused .range 1 0xFF), (decide (11 < i), .refused .range 4 0xFF),
          ((s.channel c).any fun x => !x.isIdle, .refused .state 1 0xFF),
          (decide (s.line.station .bowser c = none), .refused .absent 1 0xFF),
          (decide (s.set i = none), .refused .absent 4 0xFF), (decide (s.lease i = none), .refused .notLeased 4 0xFF),
          (s.deliveries.channels.cells.any fun x => x.target == some i, .refused .conflict 4 0xFF),
          (!(s.line.station .bowser c).any fun st => st.state == .answering, .refused .state 1 0xFF),
          (!(s.line.station .set i).any fun st => st.state == .answering, .refused .state 4 0xFF),
          (decide ((s.marksOf i).highClear ≤ s.levelOf i), .refused .state 4 0xFF),
          (decide (ordered = 0) || (s.lease i).any fun l => decide (l.capacity < ordered), .refused .range 5 0xFF),
          (decide (s.deliveries.opened = 4294967295), .refused .full 0 0xFF),
          (!s.line.consoleRoom .routine, .refused .busy 0 0xFF)]
        (((({ s.judged .yard with
            deliveries := { s.deliveries with opened := s.deliveries.opened + 1 } } : State).setChannel c
              (.armed (s.openedDelivery c ticket supplier i ordered))).offer .pumpRun c .routine).finish,
          some (.done [])))).transmit := by
  rw [exec_of_fields (row := .openDelivery) (owner := finishing ownOpenDelivery) rfl h rfl
    [(1, c), (4, ticket), (2, supplier), (1, i), (2, ordered)] rfl (by simp [*]) (by simp [encodeFields]), finishing,
    ownOpenDelivery, finished_unlessRefused (by simp [refuse]), ← Option.elim_true_eq_not_any, ← Line.not_enrolled_eq,
    Option.decide_eq_none_eq_isNone (s.set i), Option.decide_eq_none_eq_isNone (s.lease i), ← Line.stationIs_eq,
    ← Line.stationIs_eq, ← Option.elim_false_eq_any, ← beq_eq_decide, ← beq_eq_decide]
  rfl

/-- Settles O31: the request by its checks; the channel exists where the range check passes. -/
theorem openDeliveryArmsTheChannel : Obligations.OpenDeliveryArmsTheChannel := by
  intro s tag c ticket supplier i ordered hc ht hs hi ho payload h t
  obtain ⟨hrefused, haccepted⟩ := firstDecides_of
    (fun x => exec (.openDelivery .yard) s = .next (deliver .yard x).transmit) (exec_openDelivery_offered hc ht hs hi ho h)
  refine ⟨hrefused, fun hnone => ?_⟩
  have hrange := hnone (decide (2 < c), .refused .range 1 0xFF) (by simp)
  obtain ⟨x, hx⟩ : ∃ x, s.channel c = some x := by
    refine Option.isSome_iff_exists.1 ((s.deliveries.channels.get_isSome c).trans (decide_eq_true ?_))
    have := of_decide_eq_false hrange
    omega
  refine ⟨x, hx, ?_⟩
  intro d
  have hd : s.openedDelivery c ticket supplier i ordered = d := State.openedDelivery_of_channel hx ticket supplier i ordered
  rw [haccepted hnone, hd]
  have hset : ({ s.judged .yard with
      deliveries := { s.deliveries with opened := s.deliveries.opened + 1 } } : State).setChannel c (.armed d) =
      { s.judged .yard with
        deliveries := { s.deliveries with
          channels := s.deliveries.channels.set c { x with state := .armed d }
          opened := s.deliveries.opened + 1 } } :=
    State.setChannel_eq (s := { s.judged .yard with
      deliveries := { s.deliveries with opened := s.deliveries.opened + 1 } }) hx _
  rw [hset]
  rfl

end Sys2Proof.Machine
end

section
/-! PROOFS. The crew's requests on a delivery, and the outcomes of pump commands (06). -/

namespace Sys2Proof.Machine

/-! ### Answers of owners -/

theorem onChannel_of_state {s : State} {c : Nat} {x : Channel} {q : ChannelState} (h : s.channel c = some x)
    (hq : x.state = q) (k : ChannelState → Answered) : onChannel s c k = k q := by
  rw [onChannel, h, ← hq]

/-- R104, R106, R107: a request that stops the pump, by whether the halt would find room. -/
theorem stopRequest_replies {s : State} {c : Nat} {x : Channel} {d : Delivery} {k : State → Delivery → State} {res : Result}
    (hres : res = .next (deliver .yard (finished (stopRequest s c k))).transmit) (h : s.channel c = some x)
    (ho : x.open_ = some d) :
    (s.haltBusy c = true → res = .next (s.replied .yard (.refused .busy 0 0xFF))) ∧
      (s.haltBusy c = false → ∃ e, (s.stopPump c).delivery c = some e ∧
        res = .next ((k (s.stopPump c) e).finish.didReply .yard [])) := by
  refine ⟨fun hb => ?_, fun hb => ?_⟩
  · rw [hres, stopRequest, if_pos hb]
    rfl
  · obtain ⟨e, he, hs⟩ := State.stopThen_of_open h ho k
    refine ⟨e, he, ?_⟩
    rw [hres, stopRequest, if_neg (Bool.eq_false_iff.1 hb), hs]
    rfl

section
variable {s : State} {tag : Byte} {c : Nat}

theorem exec_holdDelivery_offered (hc : c < 256) (h : Offered s .yard 0x31 tag (be 1 c)) :
    exec (.holdDelivery .yard) s =
      .next (deliver .yard (finished (ownHoldDelivery [c] (s.judged .yard)))).transmit :=
  exec_of_fields (row := .holdDelivery) (owner := finishing ownHoldDelivery) rfl h rfl [(1, c)] rfl (by simp [hc])
    (by simp [encodeFields])

theorem exec_resumeDelivery_offered (hc : c < 256) (h : Offered s .yard 0x32 tag (be 1 c)) :
    exec (.resumeDelivery .yard) s =
      .next (deliver .yard (finished (ownResumeDelivery [c] (s.judged .yard)))).transmit :=
  exec_of_fields (row := .resumeDelivery) (owner := finishing ownResumeDelivery) rfl h rfl [(1, c)] rfl (by simp [hc])
    (by simp [encodeFields])

theorem exec_finishDelivery_offered (hc : c < 256) (h : Offered s .yard 0x33 tag (be 1 c)) :
    exec (.finishDelivery .yard) s =
      .next (deliver .yard (finished (ownFinishDelivery [c] (s.judged .yard)))).transmit :=
  exec_of_fields (row := .finishDelivery) (owner := finishing ownFinishDelivery) rfl h rfl [(1, c)] rfl (by simp [hc])
    (by simp [encodeFields])

theorem exec_cancelDelivery_offered (hc : c < 256) (h : Offered s .yard 0x34 tag (be 1 c)) :
    exec (.cancelDelivery .yard) s =
      .next (deliver .yard (finished (ownCancelDelivery [c] (s.judged .yard)))).transmit :=
  exec_of_fields (row := .cancelDelivery) (owner := finishing ownCancelDelivery) rfl h rfl [(1, c)] rfl (by simp [hc])
    (by simp [encodeFields])

end

/-! ### Stopping and running the pump -/

theorem State.haltOutstanding_eq_false {s : State} {c : Nat} :
    s.haltOutstanding c = false ↔ ∀ k ∈ s.line.queue ++ s.line.waiting, k.isPump .pumpHalt c = false := by
  simp [haltOutstanding, Line.outstanding, or_imp, forall_and]

theorem State.runWithdrawable_eq_false {s : State} {c : Nat} :
    s.runWithdrawable c = false ↔ ∀ k ∈ s.line.queue, k.isPump .pumpRun c = true → k.committed = true := by
  simp [runWithdrawable]

theorem State.runWithdrawable_eq_true {s : State} {c : Nat} :
    s.runWithdrawable c = true ↔ ∃ k ∈ s.line.queue, k.isPump .pumpRun c = true ∧ k.committed = false := by
  simp [runWithdrawable]

theorem State.haltBusy_iff (s : State) (c : Nat) :
    s.haltBusy c = true ↔ (∀ k ∈ s.line.queue, k.isPump .pumpRun c = true → k.committed = true) ∧
      s.haltOutstanding c = false ∧ s.line.consoleRoom .safety = false := by
  rw [haltBusy, needsHalt, Bool.and_eq_true, Bool.and_eq_true, Bool.not_eq_true', Bool.not_eq_true', Bool.not_eq_true',
    runWithdrawable_eq_false, and_assoc]

theorem State.stopPump_of_withdrawable {s : State} {c : Nat} (h : s.runWithdrawable c = true) :
    s.stopPump c =
      ((s.line.queue.filter fun k => k.isPump .pumpRun c && !k.committed).map fun k => k.serial).foldl
        State.recall (s.changeDelivery c fun d => { d with haltConfirmed := true }) := by
  rw [stopPump, if_pos h, List.foldl_map]

/-- R58: recalling commands changes the line and what is told, and gives no serial out. -/
theorem State.foldl_recall_serial (ns : List Nat) : ∀ s : State, ∃ (l : Line) (m : List Told),
    ns.foldl State.recall s = { s with line := l, told := m } ∧ l.nextSerial = s.line.nextSerial := by
  induction ns with
  | nil => exact fun s => ⟨s.line, s.told, rfl, rfl⟩
  | cons n ns ih =>
    intro s
    obtain ⟨l, m, h, -, hserial⟩ := s.recall_frame n
    obtain ⟨l', m', h', hserial'⟩ := ih (s.recall n)
    refine ⟨l', m', h'.trans (by rw [h]), hserial'.trans ?_⟩
    rw [h]
    exact hserial

/-- R57: the commands that enter the queue when the waiting list is examined waited. -/
theorem State.queue_admitWaiting (s : State) :
    ∃ entered, s.admitWaiting.line.queue = s.line.queue ++ entered ∧ entered.Sublist s.line.waiting := by
  obtain ⟨fates, hmap, -, heq⟩ := s.admitWaiting_admits
  refine ⟨enteredOf fates, by rw [heq], ?_⟩
  rw [← hmap]
  exact List.Sublist.map _ List.filter_sublist

/-- R58: withdrawing the one command of a serial that is queued and not committed. -/
theorem State.queue_recall {s : State} {k : Command} {before after : List Command}
    (hq : s.line.queue = before ++ k :: after) (hk : k.committed = false)
    (hother : ∀ y ∈ before ++ after, y.serial ≠ k.serial) (hwaiting : ∀ y ∈ s.line.waiting, y.serial ≠ k.serial) :
    ∃ entered, (s.recall k.serial).line.queue = before ++ after ++ entered ∧ entered.Sublist s.line.waiting := by
  have hwaits : s.line.waits k.serial = false := by simpa [Line.waits] using hwaiting
  have huncommitted : s.line.uncommitted k.serial = true := by
    have hqueued : s.line.queued k.serial = some k := by
      have hbefore : before.find? (fun y => y.serial == k.serial) = none :=
        List.find?_eq_none.2 fun y hy => by simpa using hother y (List.mem_append_left _ hy)
      rw [Line.queued, hq, List.find?_append, hbefore, Option.none_or, List.find?_cons_of_pos (by simp)]
    simp [Line.uncommitted, hqueued, hk]
  have hleft : s.line.queue.filter (fun y => y.serial != k.serial) = before ++ after := by
    have hkeep (y : Command) (hy : y ∈ before ++ after) : (y.serial != k.serial) = true := bne_iff_ne.2 (hother y hy)
    rw [hq, List.filter_append, List.filter_cons_of_neg (by simp),
      List.filter_eq_self.2 fun y hy => hkeep y (List.mem_append_left _ hy),
      List.filter_eq_self.2 fun y hy => hkeep y (List.mem_append_right _ hy)]
  obtain ⟨entered, hentered, hsub⟩ := State.queue_admitWaiting { s with
    line := { s.line with queue := s.line.queue.filter fun c => c.serial != k.serial }.dropChosen k.serial }
  rw [Line.dropChosen_eq] at hentered hsub
  refine ⟨entered, ?_, hsub⟩
  rw [State.recall, hwaits, if_neg Bool.false_ne_true, huncommitted, if_pos rfl, Line.dropChosen_eq, hentered, hleft]

/-- R102: what stopping the pump leaves in the queue. -/
theorem State.queue_stopPump {s : State} {c : Nat} {k : Command} {before after : List Command}
    (hq : s.line.queue = before ++ k :: after) (hrun : k.isPump .pumpRun c = true) (hk : k.committed = false)
    (hother : ∀ y ∈ before ++ after, y.serial ≠ k.serial ∧ (y.isPump .pumpRun c = true → y.committed = true))
    (hwaiting : ∀ y ∈ s.line.waiting, y.serial ≠ k.serial) :
    ∃ entered, (s.stopPump c).line.queue = before ++ after ++ entered ∧ entered.Sublist s.line.waiting := by
  have hkeep (y : Command) (hy : y ∈ before ++ after) : ¬(y.isPump .pumpRun c && !y.committed) = true := by
    intro h
    obtain ⟨hy1, hy2⟩ := Bool.and_eq_true_iff.1 h
    simp [(hother y hy).2 hy1] at hy2
  have hruns : s.line.queue.filter (fun k => k.isPump .pumpRun c && !k.committed) = [k] := by
    rw [hq, List.filter_append, List.filter_cons_of_pos (by simp [hrun, hk]),
      List.filter_eq_nil_iff.2 fun y hy => hkeep y (List.mem_append_left _ hy),
      List.filter_eq_nil_iff.2 fun y hy => hkeep y (List.mem_append_right _ hy)]
    rfl
  rw [stopPump_of_withdrawable (runWithdrawable_eq_true.2 ⟨k, by simp [hq], hrun, hk⟩), hruns]
  exact queue_recall (s := s.changeDelivery c fun d => { d with haltConfirmed := true }) hq hk (fun y hy => (hother y hy).1)
    hwaiting

theorem State.changeDelivery_self {s : State} {c : Nat} {x : Channel} {d : Delivery} (h : s.channel c = some x)
    (hd : s.delivery c = some d) (f : Delivery → Delivery) : (s.changeDelivery c f).delivery c = some (f d) := by
  rw [changeDelivery_eq h, delivery_of_channel (channel_withChannel h _)]
  exact Channel.open_change ((delivery_of_channel h).symm.trans hd) f

/-! ### Outcomes of pump commands -/

theorem State.channelState_of_channel {s : State} {c : Nat} {x : Channel} (h : s.channel c = some x) :
    s.channelState c = some x.state := by
  rw [channelState, h]
  rfl

theorem State.pumpOutcome_run {s : State} {k : Command} {x : Channel} (h : s.channel k.object = some x)
    (ho : k.order = .pumpRun) (o : CommandOutcome) :
    s.pumpOutcome k o =
      match x.state, o with
      | .halted _ _, .done => s.stopPump k.object
      | .settling _ _, .done => s.stopPump k.object
      | .armed d, .noAnswer => s.haltChannel k.object d .hold
      | .flowing d, .noAnswer => s.haltChannel k.object d .hold
      | _, _ => s := by
  rw [pumpOutcome, ho]
  simp only [pumpRunEnded, channelState_of_channel h]
  cases x.state <;> cases o <;> rfl

/-- R103: a PUMP HALT that ends DONE is confirmed. -/
theorem State.haltDone_of_channel {s : State} {c : Nat} {x : Channel} (h : s.channel c = some x) :
    s.haltDone c =
      match x.state.change fun d => { d with haltConfirmed := true } with
      | .halted d .highMark => (s.setChannel c (.halted d .highMark)).judgeResume c d
      | q => s.setChannel c q := by
  have hset : (s.changeDelivery c fun d => { d with haltConfirmed := true }) =
      s.setChannel c (x.state.change fun d => { d with haltConfirmed := true }) := by
    rw [changeDelivery_eq h, setChannel_eq h]
  have hstate (q : ChannelState) : (s.setChannel c q).channelState c = some q := by
    rw [setChannel_eq h, channelState_of_channel (channel_withChannel h _)]
  simp only [haltDone, hset, hstate]
  cases x.state with
  | halted d q => cases q <;> rfl
  | _ => rfl

theorem State.pumpOutcome_halt {s : State} {k : Command} {x : Channel} (h : s.channel k.object = some x)
    (ho : k.order = .pumpHalt) (o : CommandOutcome) :
    ((∀ d, x.open_ = some d → d.halt ≠ some k.serial) → s.pumpOutcome k o = s) ∧
      ∀ d, x.open_ = some d → d.halt = some k.serial →
        s.pumpOutcome k o =
          match o with
          | .done => s.haltDone k.object
          | .noAnswer => s.haltUnanswered k.object
          | .removed => s := by
  have hended : s.pumpOutcome k o = s.pumpHaltEnded k o := by rw [pumpOutcome, ho]
  rw [hended]
  unfold pumpHaltEnded
  rw [delivery_of_channel h]
  refine ⟨fun hne => ?_, fun d hd hhalt => ?_⟩
  · cases hd : x.open_ with
    | none => rfl
    | some d => exact if_neg (mt beq_iff_eq.1 (hne d hd))
  · rw [hd]
    exact if_pos (beq_iff_eq.2 hhalt)

theorem State.haltUnanswered_of_channel {s : State} {c : Nat} {x : Channel} (h : s.channel c = some x) :
    (((∃ d q, x.state = .halted d q) ∨ ∃ d n, x.state = .settling d n) →
        s.haltUnanswered c = if s.line.stationIs .bowser c .lost then s else s.offerHalt c) ∧
      ((∃ d, x.state = .armed d ∨ x.state = .flowing d) → s.haltUnanswered c = s) := by
  simp only [haltUnanswered, channelState_of_channel h]
  refine ⟨?_, ?_⟩
  · rintro (⟨d, q, hx⟩ | ⟨d, n, hx⟩) <;> rw [hx]
  · rintro ⟨d, hx | hx⟩ <;> rw [hx]

theorem Line.stationIs_eq_true {l : Line} {c : StationClass} {object : Nat} {q : StationState} :
    l.stationIs c object q = true ↔ ∃ st, l.station c object = some st ∧ st.state = q := by
  rw [stationIs_eq]
  cases l.station c object <;> simp

/-! ### The requests, state by state -/

section
variable {s : State} {tag : Byte} {c : Nat} {x : Channel}

theorem Channel.open_of_armed_or_flowing {d : Delivery} (h : x.state = .armed d ∨ x.state = .flowing d) :
    x.open_ = some d := by
  rcases h with h | h <;> rw [Channel.open_, h]

/-- R104: HOLD DELIVERY by the state of the channel. -/
theorem holdDelivery_of_channel (hc : c < 256) (hx : s.channel c = some x) (h : Offered s .yard 0x31 tag (be 1 c)) :
    let t := s.judged .yard
    (∀ d, x.state = .armed d ∨ x.state = .flowing d →
        (s.haltBusy c = true → exec (.holdDelivery .yard) s = .next (t.replied .yard (.refused .busy 0 0xFF))) ∧
          (s.haltBusy c = false → ∃ e, (t.stopPump c).delivery c = some e ∧
            exec (.holdDelivery .yard) s =
              .next (((t.stopPump c).haltChannel c e .hold).finish.didReply .yard []))) ∧
      (∀ d q, x.state = .halted d q →
        exec (.holdDelivery .yard) s = .next ((t.setChannel c (.halted d .hold)).finish.didReply .yard [])) ∧
      (x.state = .idle ∨ (∃ d n, x.state = .settling d n) ∨ (∃ r n, x.state = .heldLog r n) →
        exec (.holdDelivery .yard) s = .next (t.replied .yard (.refused .state 1 0xFF))) := by
  intro t
  have hexec := exec_holdDelivery_offered hc h
  refine ⟨fun d hd => ?_, fun d q hq => ?_, ?_⟩
  · have hstop : ownHoldDelivery [c] t = stopRequest t c fun s d => s.haltChannel c d .hold := by
      rw [ownHoldDelivery]
      rcases hd with hd | hd <;> exact onChannel_of_state (s := t) hx hd _
    rw [hstop] at hexec
    exact stopRequest_replies hexec hx (Channel.open_of_armed_or_flowing hd)
  · have hdone : ownHoldDelivery [c] t = done (t.setChannel c (.halted d .hold)) [] := by
      rw [ownHoldDelivery]
      exact onChannel_of_state (s := t) hx hq _
    rw [hexec, hdone]
    rfl
  · intro hstate
    have hrefused : ownHoldDelivery [c] t = (t, some (refuse .state 1)) := by
      rw [ownHoldDelivery]
      rcases hstate with hq | ⟨d, n, hq⟩ | ⟨r, n, hq⟩ <;> exact onChannel_of_state (s := t) hx hq _
    rw [hexec, hrefused]
    rfl

/-- R105: RESUME DELIVERY by the state of the channel. -/
theorem resumeDelivery_of_channel (hc : c < 256) (hx : s.channel c = some x) (h : Offered s .yard 0x32 tag (be 1 c)) :
    let t := s.judged .yard
    (∀ d, x.state = .halted d .hold →
        (s.line.stationIs .set d.set .lost = true ∨ s.haltOutstanding c = true →
            exec (.resumeDelivery .yard) s = .next (t.replied .yard (.refused .state 1 0xFF))) ∧
          (s.line.stationIs .set d.set .lost = false → s.haltOutstanding c = false →
            ((s.marksOf d.set).highClear ≤ s.levelOf d.set →
                exec (.resumeDelivery .yard) s =
                  .next ((t.setChannel c (.halted d .highMark)).finish.didReply .yard [])) ∧
              (s.levelOf d.set < (s.marksOf d.set).highClear → s.line.consoleRoom .routine = false →
                exec (.resumeDelivery .yard) s = .next (t.replied .yard (.refused .busy 0 0xFF))) ∧
              (s.levelOf d.set < (s.marksOf d.set).highClear → s.line.consoleRoom .routine = true →
                exec (.resumeDelivery .yard) s =
                  .next (((t.setChannel c (if d.delivered = 0 then .armed d else .flowing d)).runPump
                    c).finish.didReply .yard [])))) ∧
      ((∀ d, x.state ≠ .halted d .hold) →
        exec (.resumeDelivery .yard) s = .next (t.replied .yard (.refused .state 1 0xFF))) := by
  intro t
  have hexec := exec_resumeDelivery_offered hc h
  refine ⟨fun d hd => ?_, fun hstate => ?_⟩
  · have hresume : ownResumeDelivery [c] t =
        unlessRefused t [(s.line.stationIs .set d.set .lost, refuse .state 1), (s.haltOutstanding c, refuse .state 1)]
          (if (s.marksOf d.set).highClear ≤ s.levelOf d.set then done (t.setChannel c (.halted d .highMark)) []
            else if !s.line.consoleRoom .routine then (t, some (refuse .busy 0))
            else done ((t.setChannel c (if d.delivered == 0 then .armed d else .flowing d)).runPump c) []) := by
      rw [ownResumeDelivery]
      exact onChannel_of_state (s := t) hx hd _
    rw [hresume] at hexec
    simp only [unlessRefused_cons, unlessRefused_nil] at hexec
    refine ⟨fun hrefused => ?_, fun hpresent hout => ?_⟩
    · have hreply : exec (.resumeDelivery .yard) s =
          .next (deliver .yard (finished (t, some (refuse .state 1)))).transmit := by
        rw [hexec]
        rcases hrefused with hr | hr
        · rw [hr, if_pos rfl]
        · rw [hr, if_pos rfl, ite_self]
      exact hreply
    · rw [hpresent, hout, if_neg Bool.false_ne_true, if_neg Bool.false_ne_true] at hexec
      refine ⟨fun hhigh => ?_, fun hlow hroom => ?_, fun hlow hroom => ?_⟩
      · rw [hexec, if_pos hhigh]
        rfl
      · rw [hexec, if_neg (Nat.not_le.2 hlow), hroom]
        rfl
      · rw [hexec, if_neg (Nat.not_le.2 hlow), hroom]
        simp only [beq_iff_eq]
        rfl
  · have hrefused : ownResumeDelivery [c] t = (t, some (refuse .state 1)) := by
      rw [ownResumeDelivery]
      cases hq : x.state with
      | halted d q =>
        cases q with
        | hold => exact absurd hq (hstate d)
        | _ => exact onChannel_of_state (s := t) hx hq _
      | _ => exact onChannel_of_state (s := t) hx hq _
    rw [hexec, hrefused]
    rfl

/-- R106: FINISH DELIVERY by the state of the channel. -/
theorem finishDelivery_of_channel (hc : c < 256) (hx : s.channel c = some x) (h : Offered s .yard 0x33 tag (be 1 c)) :
    let t := s.judged .yard
    (∀ d, x.state = .armed d ∨ x.state = .flowing d →
        (s.haltBusy c = true → exec (.finishDelivery .yard) s = .next (t.replied .yard (.refused .busy 0 0xFF))) ∧
          (s.haltBusy c = false → ∃ e, (t.stopPump c).delivery c = some e ∧
            exec (.finishDelivery .yard) s =
              .next (((t.stopPump c).setChannel c (.settling e 600)).finish.didReply .yard []))) ∧
      (∀ d q, x.state = .halted d q →
        exec (.finishDelivery .yard) s = .next ((t.setChannel c (.settling d 600)).finish.didReply .yard [])) ∧
      (x.state = .idle ∨ (∃ d n, x.state = .settling d n) ∨ (∃ r n, x.state = .heldLog r n) →
        exec (.finishDelivery .yard) s = .next (t.replied .yard (.refused .state 1 0xFF))) := by
  intro t
  have hexec := exec_finishDelivery_offered hc h
  refine ⟨fun d hd => ?_, fun d q hq => ?_, ?_⟩
  · have hstop : ownFinishDelivery [c] t = stopRequest t c fun s d => s.setChannel c (.settling d 600) := by
      rw [ownFinishDelivery]
      rcases hd with hd | hd <;> exact onChannel_of_state (s := t) hx hd _
    rw [hstop] at hexec
    exact stopRequest_replies hexec hx (Channel.open_of_armed_or_flowing hd)
  · have hdone : ownFinishDelivery [c] t = done (t.setChannel c (.settling d 600)) [] := by
      rw [ownFinishDelivery]
      exact onChannel_of_state (s := t) hx hq _
    rw [hexec, hdone]
    rfl
  · intro hstate
    have hrefused : ownFinishDelivery [c] t = (t, some (refuse .state 1)) := by
      rw [ownFinishDelivery]
      rcases hstate with hq | ⟨d, n, hq⟩ | ⟨r, n, hq⟩ <;> exact onChannel_of_state (s := t) hx hq _
    rw [hexec, hrefused]
    rfl

/-- R107: CANCEL DELIVERY by the state of the channel. -/
theorem cancelDelivery_of_channel (hc : c < 256) (hx : s.channel c = some x) (h : Offered s .yard 0x34 tag (be 1 c)) :
    let t := s.judged .yard
    (∀ d, x.state = .armed d →
        (s.haltBusy c = true → exec (.cancelDelivery .yard) s = .next (t.replied .yard (.refused .busy 0 0xFF))) ∧
          (s.haltBusy c = false → ∃ e, (t.stopPump c).delivery c = some e ∧
            exec (.cancelDelivery .yard) s =
              .next (((t.stopPump c).closeDelivery c e true).finish.didReply .yard []))) ∧
      ((∀ d, x.state ≠ .armed d) →
        exec (.cancelDelivery .yard) s = .next (t.replied .yard (.refused .state 1 0xFF))) := by
  intro t
  have hexec := exec_cancelDelivery_offered hc h
  refine ⟨fun d hd => ?_, fun hstate => ?_⟩
  · have hstop : ownCancelDelivery [c] t = stopRequest t c fun s d => s.closeDelivery c d true := by
      rw [ownCancelDelivery]
      exact onChannel_of_state (s := t) hx hd _
    rw [hstop] at hexec
    exact stopRequest_replies hexec hx (Channel.open_of_armed_or_flowing (.inl hd))
  · have hrefused : ownCancelDelivery [c] t = (t, some (refuse .state 1)) := by
      rw [ownCancelDelivery]
      cases hq : x.state with
      | armed d => exact absurd hq (hstate d)
      | _ => exact onChannel_of_state (s := t) hx hq _
    rw [hexec, hrefused]
    rfl

end

theorem onChannel_of_range {s : State} {c : Nat} (h : 2 < c) (k : ChannelState → Answered) :
    onChannel s c k = (s, some (refuse .range 1)) := by
  have hnone : s.channel c = none := Table.get_eq_none _ h
  rw [onChannel, hnone]

/-- Settles O32: the requests by the state of the channel; the two procedures of the pump; the outcomes. -/
theorem crewRequestsOnADelivery : Obligations.CrewRequestsOnADelivery := by
  refine ⟨fun s tag c x hc hx => ⟨holdDelivery_of_channel hc hx, resumeDelivery_of_channel hc hx,
    finishDelivery_of_channel hc hx, cancelDelivery_of_channel hc hx⟩, fun s tag c hr hc => ⟨fun h => ?_, fun h => ?_,
    fun h => ?_, fun h => ?_⟩, State.haltBusy_iff, fun s c x hx => ⟨fun hcommitted => ⟨fun hout => ?_, fun hout => ?_⟩,
    fun hrun => ⟨?_, ?_, fun d hd => ?_⟩, fun k before after hq hrun hk hother hwaiting =>
      State.queue_stopPump hq hrun hk hother hwaiting, fun d cause => ?_, State.setChannel_eq hx,
    State.haltOutstanding_eq_false, State.runOutstanding_eq_false, fun k o hk ho => ⟨fun hdone hstate => ?_,
      fun d hnone hstate => ?_, fun hstate => ?_⟩, fun k o hk ho => ?_, rfl⟩⟩
  · rw [exec_holdDelivery_offered hc h, ownHoldDelivery, onChannel_of_range (by exact hr)]
    rfl
  · rw [exec_resumeDelivery_offered hc h, ownResumeDelivery, onChannel_of_range (by exact hr)]
    rfl
  · rw [exec_finishDelivery_offered hc h, ownFinishDelivery, onChannel_of_range (by exact hr)]
    rfl
  · rw [exec_cancelDelivery_offered hc h, ownCancelDelivery, onChannel_of_range (by exact hr)]
    rfl
  · rw [State.stopPump, State.runWithdrawable_eq_false.2 hcommitted, if_neg Bool.false_ne_true, if_pos hout]
  · rw [State.stopPump, State.runWithdrawable_eq_false.2 hcommitted, if_neg Bool.false_ne_true, hout,
      if_neg Bool.false_ne_true]
    rfl
  · exact State.stopPump_of_withdrawable (State.runWithdrawable_eq_true.2 hrun)
  · rw [State.stopPump_of_withdrawable (State.runWithdrawable_eq_true.2 hrun)]
    obtain ⟨l, m, heq, hserial⟩ := State.foldl_recall_serial
      ((s.line.queue.filter fun k => k.isPump .pumpRun c && !k.committed).map fun k => k.serial)
      (s.changeDelivery c fun d => { d with haltConfirmed := true })
    rw [heq]
    exact hserial
  · rw [State.stopPump_of_withdrawable (State.runWithdrawable_eq_true.2 hrun)]
    obtain ⟨l, m, heq, -⟩ := State.foldl_recall_serial
      ((s.line.queue.filter fun k => k.isPump .pumpRun c && !k.committed).map fun k => k.serial)
      (s.changeDelivery c fun d => { d with haltConfirmed := true })
    rw [heq]
    exact State.changeDelivery_self hx hd _
  · rw [State.haltChannel, State.setChannel_eq hx]
    cases cause <;> rfl
  · subst hk
    rw [State.pumpOutcome_run hx ho, hdone]
    rcases hstate with ⟨d, q, hq⟩ | ⟨d, n, hq⟩ <;> rw [hq]
  · subst hk
    rw [State.pumpOutcome_run hx ho, hnone]
    rcases hstate with hq | hq <;> rw [hq]
  · subst hk
    rw [State.pumpOutcome_run hx ho]
    rcases hstate with hr | hq | ⟨r, n, hq⟩ | ⟨hr, d, hq | hq⟩ | ⟨hr, d, ⟨q, hq⟩ | ⟨n, hq⟩⟩
    · rw [hr]
      cases x.state <;> rfl
    · rw [hq]
    · rw [hq]
    all_goals rw [hr, hq]
  · subst hk
    obtain ⟨hother, hours⟩ := State.pumpOutcome_halt hx ho o
    refine ⟨hother, fun d hd hhalt => ?_⟩
    have hended := hours d hd hhalt
    intro e again
    refine ⟨fun hdone => ?_, fun hnone => ?_, fun hremoved => by rw [hended, hremoved]⟩
    · rw [hended, hdone]
      simp only [State.haltDone_of_channel hx]
      refine ⟨fun hq => by rw [hq]; rfl, fun hq => by rw [hq]; rfl, fun q hq hne => ?_, fun hq => by rw [hq]; rfl,
        fun n hq => by rw [hq]; rfl⟩
      rw [hq]
      cases q with
      | highMark => exact absurd rfl hne
      | _ => rfl
    · rw [hended, hnone]
      obtain ⟨hstopped, hrunning⟩ := State.haltUnanswered_of_channel hx
      refine ⟨fun hstate => ?_, fun hstate => ?_⟩
      · have hunanswered := hstopped (hstate.imp (fun ⟨q, hq⟩ => ⟨d, q, hq⟩) fun ⟨n, hq⟩ => ⟨d, n, hq⟩)
        refine ⟨fun hpresent => ?_, fun hlost => ?_⟩
        · have hnot : ¬s.line.stationIs .bowser k.object .lost = true := by
            rw [Line.stationIs_eq_true]
            exact fun ⟨st, hst, hl⟩ => hpresent st hst hl
          rw [hunanswered, if_neg hnot]
          rfl
        · rw [hunanswered, if_pos (Line.stationIs_eq_true.2 hlost)]
      · exact hrunning ⟨d, hstate⟩

end Sys2Proof.Machine
end

section
/-! PROOFS. The close of a delivery (06). -/

namespace Sys2Proof.Machine

/-! ### The record -/

theorem saturate_eq (x : Int) :
    saturate x = if x < -2147483648 then -2147483648 else if 2147483647 < x then 2147483647 else x := by
  unfold saturate
  split
  · omega
  · split <;> omega

theorem disputeLimit_lt_iff (delivered n : Nat) : disputeLimit delivered < n ↔ delivered / 50 < n ∧ 200 < n := max_lt_iff

theorem Delivery.outcome_eq (d : Delivery) (cancelled : Bool) :
    d.outcome cancelled =
      if cancelled then .cancelled else if d.meterLost then .meterLost
      else if d.ordered ≤ d.delivered.toNat then .complete else .short := by
  simp only [outcome, Delivery.reached_iff]

theorem toNat_delivered (d : Delivery) (cancelled : Bool) :
    (if cancelled then (0 : Word32) else d.delivered).toNat = if cancelled then 0 else d.delivered.toNat := by
  cases cancelled <;> rfl

/-! ### The log and the channel -/

/-- R113, step 6: DELIVERY CLOSED. -/
def closedData (c : Nat) (r : DeliveryRecord) (held : Nat) : List Byte :=
  be 1 c ++ be 4 r.ticket ++ be 1 r.set ++ be 1 r.outcome.value ++ be 4 r.delivered.toNat ++ beInt4 r.discrepancy ++
    be 1 (flag r.disputed) ++ be 1 held

theorem closedData_eq (c : Nat) (r : DeliveryRecord) (held : Nat) :
    closedData c r held =
      be 1 c ++ be 4 r.ticket ++ be 1 r.set ++
        be 1 (match r.outcome with | .complete => 1 | .short => 2 | .cancelled => 3 | .meterLost => 4) ++
        be 4 r.delivered.toNat ++ be 4 (r.discrepancy % 4294967296).toNat ++ be 1 (flag r.disputed) ++ be 1 held := by
  unfold closedData
  cases r.outcome <;> rfl

section
variable {s : State} {c : Nat} {x : Channel}

/-- R113: the record joins the log, and the channel is IDLE. -/
def State.filed (s : State) (c : Nat) (x : Channel) (r : DeliveryRecord) : State :=
  { s with
    deliveries := { s.deliveries with
      channels := s.deliveries.channels.set c { x with state := .idle }
      log := s.deliveries.log ++ [r] } }

/-- R113: the record stays with its channel. -/
def State.heldBy (s : State) (c : Nat) (x : Channel) (r : DeliveryRecord) : State :=
  { s with
    deliveries := { s.deliveries with
      channels := s.deliveries.channels.set c { x with state := .heldLog r s.deliveries.nextHeld }
      nextHeld := s.deliveries.nextHeld + 1 } }

theorem State.fileRecord_of_room (hx : s.channel c = some x) (hroom : s.deliveries.log.length < 32) (r : DeliveryRecord) :
    s.fileRecord c r = (s.filed c x r).post .deliveryClosed (closedData c r 0) := by
  have hset : ({ s with deliveries := { s.deliveries with log := s.deliveries.log ++ [r] } } : State).setChannel c .idle =
      s.filed c x r :=
    setChannel_eq (s := { s with deliveries := { s.deliveries with log := s.deliveries.log ++ [r] } }) hx .idle
  have hfits : decide (s.deliveries.log.length < Config.logCap) = true := decide_eq_true hroom
  simp only [fileRecord, hfits, if_true, hset]
  rfl

theorem State.fileRecord_of_full (hx : s.channel c = some x) (hfull : 32 ≤ s.deliveries.log.length) (r : DeliveryRecord) :
    s.fileRecord c r =
      ((s.heldBy c x r).post .deliveryClosed (closedData c r 1)).post .logFull
        (be 1 c ++ be 4 r.ticket ++ be 1 (s.heldBy c x r).heldCount) := by
  have hset : ({ s with deliveries := { s.deliveries with nextHeld := s.deliveries.nextHeld + 1 } } : State).setChannel c
      (.heldLog r s.deliveries.nextHeld) = s.heldBy c x r :=
    setChannel_eq (s := { s with deliveries := { s.deliveries with nextHeld := s.deliveries.nextHeld + 1 } }) hx _
  have hfits : decide (s.deliveries.log.length < Config.logCap) = false := decide_eq_false (Nat.not_lt.2 hfull)
  simp only [fileRecord, hfits, Bool.false_eq_true, if_false, hset]
  rw [State.heldCount, State.post_deliveries]
  rfl

/-- R113: what filing a record leaves as it is. -/
theorem State.fileRecord_frame (hx : s.channel c = some x) (r : DeliveryRecord) :
    ((s.fileRecord c r).deliveries.opened = s.deliveries.opened ∧
        (s.fileRecord c r).deliveries.taken = s.deliveries.taken ∧
        ∀ j, j ≠ c → (s.fileRecord c r).channel j = s.channel j) ∧
      (s.fileRecord c r).sets = s.sets ∧ (s.fileRecord c r).line = s.line ∧ (s.fileRecord c r).stages = s.stages ∧
      (s.fileRecord c r).billing = s.billing ∧ (s.fileRecord c r).tally = s.tally ∧
      (s.fileRecord c r).period = s.period ∧ (s.fileRecord c r).told = s.told := by
  have hother (j : Nat) (hj : j ≠ c) (y : Channel) : (s.deliveries.channels.set c y).get j = s.deliveries.channels.get j := by
    rw [Table.get_set, if_neg (Ne.symm hj)]
  rcases Nat.lt_or_ge s.deliveries.log.length 32 with hroom | hfull
  · rw [fileRecord_of_room hx hroom]
    simp only [State.channel, post_deliveries, post_sets, post_line, post_stages, post_billing, post_tally, post_period,
      post_told]
    exact ⟨⟨rfl, rfl, fun j hj => hother j hj _⟩, rfl, rfl, rfl, rfl, rfl, rfl, rfl⟩
  · rw [fileRecord_of_full hx hfull]
    simp only [State.channel, post_deliveries, post_sets, post_line, post_stages, post_billing, post_tally, post_period,
      post_told]
    exact ⟨⟨rfl, rfl, fun j hj => hother j hj _⟩, rfl, rfl, rfl, rfl, rfl, rfl, rfl⟩

end

theorem State.heldCount_eq (s : State) :
    s.heldCount = (s.deliveries.channels.cells.filter fun y => y.held.isSome).length := List.countP_eq_length_filter

theorem State.settleExpiry_due {s : State} {c : Nat} {x : Channel} {d : Delivery} (hx : s.channel c = some x)
    (h : x.state = .settling d 0) : settleExpiry s c = s.closeDelivery c d false := by
  unfold settleExpiry
  rw [channelState_of_channel hx, h] <;> rfl

theorem State.settleExpiry_not_due {s : State} {c : Nat} {x : Channel} (hx : s.channel c = some x)
    (h : ∀ d, x.state ≠ .settling d 0) : settleExpiry s c = s := by
  rw [settleExpiry, channelState_of_channel hx]
  split
  next d hd => exact absurd (Option.some.inj hd) (h d)
  next => rfl

theorem exec_settleExpiry (c : Nat) (s : State) : exec (.settleExpiry c) s = .next (settleExpiry s c).finish.transmit := rfl

/-- R113: the set that was delivered to, charged with the burn. -/
theorem State.set_deliveryClosedTo {s : State} {i : Nat} {q : SetRecord} {l : Lease} (h : s.set i = some q)
    (hl : q.lease = some l) (burn : Nat) :
    (s.deliveryClosedTo i burn).set i =
      some { q with
        reference := (match q.report with | some y => some y.level | none => q.reference)
        lease := some (l.count fun c => c.burn burn) } := by
  refine (set_changeSet_of_set h _).trans ?_
  rw [SetRecord.count, hl]
  cases q.report <;> rfl

/-- R15: what a notice does to a port depends on the port and the clock alone. -/
theorem State.port_post_congr {s u : State} {p : Port} (hport : u.port p = s.port p) (hclock : u.clock = s.clock)
    (k : NoticeKind) (data : List Byte) : (u.post k data).port p = (s.post k data).port p := by
  rw [port_post, port_post, hport, State.now, State.now, hclock]

theorem State.set_changeSet_of_ne {s : State} {i j : Nat} (h : j ≠ i) (f : SetRecord → SetRecord) :
    (s.changeSet i f).set j = s.set j := by
  simp only [State.set, changeSet, Table.used, Table.get_modify, if_neg (Ne.symm h)]

/-- Settles O33: the expiry by the state of the channel; the figures; the close by whether the log has room. -/
theorem settledDeliveryIsReconciled : Obligations.SettledDeliveryIsReconciled := by
  refine ⟨fun s c x d hx hs => ?_, fun s c x hx hs => ?_, fun d c endLevel rate cancelled closed => ?_,
    fun s c x d cancelled hx => ?_⟩
  · rw [exec_settleExpiry, State.settleExpiry_due hx hs]
  · rw [exec_settleExpiry, State.settleExpiry_not_due hx hs]
  · intro delivered burn gap r
    have hdelivered : (if cancelled then (0 : Word32) else d.delivered).toNat = delivered := toNat_delivered d cancelled
    have hgap : discrepancyOf (if cancelled then (0 : Word32) else d.delivered).toNat d.startLevel endLevel burn = gap := by
      rw [hdelivered]
      rfl
    refine ⟨rfl, rfl, rfl, rfl, rfl, hdelivered, rfl, rfl, rfl, rfl, rfl, ?_, ?_, d.outcome_eq cancelled, rfl, rfl, rfl, rfl,
      rfl⟩
    · exact (congrArg saturate hgap).trans (saturate_eq gap)
    · refine decide_eq_true_iff.trans ?_
      have hlimit : disputeLimit (if cancelled then (0 : Word32) else d.delivered).toNat = disputeLimit delivered := by
        rw [hdelivered]
      refine Iff.trans ?_ (disputeLimit_lt_iff delivered gap.natAbs)
      rw [← hlimit, ← hgap]
      rfl
  · intro r u
    let v := s.deliveryClosedTo d.set r.burn
    have hu : u = v.fileRecord c r := rfl
    have hv : v.channel c = some x := hx
    obtain ⟨⟨hopened, htaken, hother⟩, hsets, hline, hstages, hbilling, htally, hperiod, htold⟩ := State.fileRecord_frame hv r
    refine ⟨fun hroom => ?_, fun hfull => ?_, hopened, htaken, ?_, hother, fun q l hq hl => ?_, fun j hj => ?_, hline,
      hstages, hbilling, htally, hperiod, htold⟩
    · rw [hu, State.fileRecord_of_room hv hroom, State.channel, State.post_deliveries]
      exact ⟨rfl, Table.get_set_self _ _ hx⟩
    · rw [hu, State.fileRecord_of_full hv hfull, State.channel, State.post_deliveries, State.post_deliveries]
      exact ⟨rfl, Table.get_set_self _ _ hx, rfl⟩
    · intro closed full p
      rcases Nat.lt_or_ge s.deliveries.log.length 32 with hroom | hfull
      · have hclosed : closed = s.post .deliveryClosed (closedData c r 0) := by
          simp only [closed, closedData_eq, if_pos hroom] <;> rfl
        rw [if_pos hroom, hclosed, hu, State.fileRecord_of_room hv hroom]
        exact State.port_post_congr rfl rfl _ _
      · have hfull' := Nat.not_lt.2 hfull
        have hclosed : closed = s.post .deliveryClosed (closedData c r 1) := by
          simp only [closed, closedData_eq, if_neg hfull'] <;> rfl
        have hheld : (u.deliveries.channels.cells.filter fun y => y.held.isSome).length = (v.heldBy c x r).heldCount := by
          rw [State.heldCount_eq, hu, State.fileRecord_of_full hv hfull, State.post_deliveries, State.post_deliveries]
        rw [if_neg hfull']
        simp only [full, hclosed, hheld]
        have hfirst := State.port_post_congr (s := s) (u := v.heldBy c x r) (p := p) rfl rfl .deliveryClosed
          (closedData c r 1)
        have hclock : ((v.heldBy c x r).post .deliveryClosed (closedData c r 1)).clock =
            (s.post .deliveryClosed (closedData c r 1)).clock := by
          rw [State.post_clock, State.post_clock]
          rfl
        rw [hu, State.fileRecord_of_full hv hfull]
        exact State.port_post_congr hfirst hclock _ _
    · have hset : u.set d.set = v.set d.set := congrArg (fun y => y.used d.set) hsets
      exact ⟨_, hset.trans (State.set_deliveryClosedTo hq hl r.burn), toNat_satAdd _ _, toNat_satAdd _ _, rfl, rfl, rfl⟩
    · have hset : u.set j = v.set j := congrArg (fun y => y.used j) hsets
      rw [hset]
      exact State.set_changeSet_of_ne hj _

end Sys2Proof.Machine
end

section
/-! PROOFS. Delivery records and channels read (06). -/

namespace Sys2Proof.Machine

/-! ### The record that the log lets go -/

theorem flagBits_six (a b c d e f : Bool) :
    flagBits [a, b, c, d, e, f] = flag a + 2 * flag b + 4 * flag c + 8 * flag d + 16 * flag e + 32 * flag f := by
  simp only [flagBits]
  omega

theorem DeliveryRecord.bytes_eq (r : DeliveryRecord) :
    r.bytes =
      be 4 r.ticket ++ be 2 r.supplier ++ be 1 r.channel ++ be 1 r.set ++ be 2 r.ordered ++ be 4 r.delivered.toNat ++
        be 2 r.startLevel ++ be 2 r.endLevel ++ be 4 r.energy.toNat ++ be 2 r.rate ++ be 4 r.burn ++
        be 4 (r.discrepancy % 4294967296).toNat ++
        be 1 (match r.outcome with | .complete => 1 | .short => 2 | .cancelled => 3 | .meterLost => 4) ++
        be 1 (flag r.disputed + 2 * flag r.gaugeLost + 4 * flag r.meterLost) ++ be 1 r.highHalts.toNat ++
        be 1 r.opened.day ++ be 3 r.opened.second ++ be 1 r.closed.day ++ be 3 r.closed.second := by
  rw [bytes, beInt4, flagBits_three, Stamp.bytes, Stamp.bytes, ← List.append_assoc, ← List.append_assoc]
  cases r.outcome <;> rfl

theorem DeliveryRecord.length_bytes (r : DeliveryRecord) : r.bytes.length = 43 := by
  simp only [bytes, beInt4, Stamp.bytes, List.length_append, length_be]

/-! ### Channels held -/

theorem Channel.held_eq_some {x : Channel} {r : DeliveryRecord} {n : Nat} : x.held = some (r, n) ↔ x.state = .heldLog r n := by
  rw [held]
  cases x.state <;> simp

/-- The channels that hold a record, ascending, each with its record and the rank of its entry. -/
def Deliveries.heldChannels (d : Deliveries) : List (Nat × DeliveryRecord × Nat) :=
  d.channels.cells.zipIdx.filterMap fun x => x.1.held.map fun r => (x.2, r)

theorem Deliveries.earliestHeld_eq (d : Deliveries) :
    d.earliestHeld =
      (d.heldChannels.find? fun x => d.heldChannels.all fun y => decide (x.2.2 ≤ y.2.2)).map fun x => (x.1, x.2.1) := rfl

theorem Deliveries.mem_heldChannels {d : Deliveries} {c n : Nat} {r : DeliveryRecord} :
    (c, r, n) ∈ d.heldChannels ↔ ∃ x, d.channels.get c = some x ∧ x.state = .heldLog r n := by
  simp only [heldChannels, List.mem_filterMap, List.mem_zipIdx_iff_getElem?, Option.map_eq_some_iff, Prod.exists,
    Prod.mk.injEq, ← Channel.held_eq_some, Table.get]
  constructor
  · rintro ⟨x, i, hx, p, m, hheld, rfl, rfl, rfl⟩
    exact ⟨x, hx, hheld⟩
  · rintro ⟨x, hx, hheld⟩
    exact ⟨x, c, hx, r, n, hheld, rfl, rfl, rfl⟩

theorem List.find?_eq_some_of_unique {α : Type} {l : List α} {p : α → Bool} {a : α} (ha : a ∈ l) (hp : p a = true)
    (hunique : ∀ b ∈ l, p b = true → b = a) : l.find? p = some a := by
  obtain ⟨b, hb⟩ := Option.isSome_iff_exists.1 (List.find?_isSome.2 ⟨a, ha, hp⟩)
  rw [hb, hunique b (List.mem_of_find?_eq_some hb) (List.find?_some hb)]

theorem Deliveries.earliestHeld_of_none {d : Deliveries}
    (h : ∀ c x, d.channels.get c = some x → ∀ r n, x.state ≠ .heldLog r n) : d.earliestHeld = none := by
  have hnil : d.heldChannels = [] := by
    refine List.eq_nil_iff_forall_not_mem.2 fun y hy => ?_
    obtain ⟨x, hx, hs⟩ := mem_heldChannels.1 hy
    exact h _ x hx _ _ hs
  rw [earliestHeld_eq, hnil]
  rfl

/-- R115: the channel whose rank is below that of every other. -/
theorem Deliveries.earliestHeld_of_least {d : Deliveries} {c n : Nat} {x : Channel} {r : DeliveryRecord}
    (hx : d.channels.get c = some x) (hs : x.state = .heldLog r n)
    (hleast : ∀ j y g m, d.channels.get j = some y → y.state = .heldLog g m → j ≠ c → n < m) :
    d.earliestHeld = some (c, r) := by
  have hmem : (c, r, n) ∈ d.heldChannels := mem_heldChannels.2 ⟨x, hx, hs⟩
  have hsame {y : Nat × DeliveryRecord × Nat} (hy : y ∈ d.heldChannels) (hyc : y.1 = c) : y = (c, r, n) := by
    obtain ⟨j, g, m⟩ := y
    obtain ⟨z, hz, hzs⟩ := mem_heldChannels.1 hy
    cases hyc
    rw [hx] at hz
    cases hz
    rw [hs] at hzs
    cases hzs
    rfl
  have hothers {y : Nat × DeliveryRecord × Nat} (hy : y ∈ d.heldChannels) (hyc : y.1 ≠ c) : n < y.2.2 := by
    obtain ⟨z, hz, hzs⟩ := mem_heldChannels.1 hy
    exact hleast _ z _ _ hz hzs hyc
  have hfind : d.heldChannels.find? (fun x => d.heldChannels.all fun y => decide (x.2.2 ≤ y.2.2)) = some (c, r, n) := by
    refine List.find?_eq_some_of_unique hmem ?_ fun y hy hall => ?_
    · refine List.all_eq_true.2 fun y hy => decide_eq_true ?_
      by_cases hyc : y.1 = c
      · rw [hsame hy hyc]
      · exact Nat.le_of_lt (hothers hy hyc)
    · by_contra hne
      have hle := of_decide_eq_true (List.all_eq_true.1 hall (c, r, n) hmem)
      exact absurd (hothers hy fun hyc => hne (hsame hy hyc)) (Nat.not_lt.2 hle)
  rw [earliestHeld_eq, hfind]
  rfl

/-! ### READ CHANNEL -/

theorem State.channelData_judged (s : State) (p : Port) (c : Nat) (x : Channel) :
    (s.judged p).channelData c x = s.channelData c x := by
  cases p <;> rfl

theorem exec_readChannel_offered {s : State} {p : Port} {tag : Byte} {c : Nat} (hc : c < 256)
    (h : Offered s p 0x35 tag (be 1 c)) :
    exec (.readChannel p) s = .next (deliver p (ownReadChannel [c] (s.judged p))).transmit :=
  exec_of_fields (row := .readChannel) (owner := ownReadChannel) rfl h (by cases p <;> rfl) [(1, c)] rfl (by simp [hc])
    (by simp [encodeFields])

theorem ownReadChannel_of_channel {s : State} {c : Nat} {x : Channel} (h : s.channel c = some x) :
    ownReadChannel [c] s = done s (s.channelData c x) := by
  have harg : s.channel (arg [c] 1) = some x := h
  rw [ownReadChannel, harg]
  rfl

theorem exec_takeDeliveryRecord_offered {s : State} {tag : Byte} (h : Offered s .office 0x36 tag []) :
    exec (.takeDeliveryRecord .office) s =
      .next (deliver .office (ownTakeDeliveryRecord [] (s.judged .office))).transmit :=
  exec_of_empty (row := .takeDeliveryRecord) (owner := ownTakeDeliveryRecord) rfl h rfl rfl

theorem ownTakeDeliveryRecord_of_cons {s : State} {r : DeliveryRecord} {rest : List DeliveryRecord}
    (h : s.deliveries.log = r :: rest) :
    ownTakeDeliveryRecord [] s =
      done ({ s with deliveries := { s.deliveries with log := rest, taken := s.deliveries.taken + 1 } } : State).releaseHeld
        (r.bytes ++ be 1 rest.length) := by
  rw [ownTakeDeliveryRecord, h]

theorem State.releaseHeld_of_some {s : State} {c : Nat} {x : Channel} {r : DeliveryRecord} (hx : s.channel c = some x)
    (h : s.deliveries.earliestHeld = some (c, r)) :
    s.releaseHeld =
      { s with
        deliveries := { s.deliveries with
          channels := s.deliveries.channels.set c { x with state := .idle }
          log := s.deliveries.log ++ [r] } } := by
  rw [releaseHeld, h]
  exact setChannel_eq (s := { s with deliveries := { s.deliveries with log := s.deliveries.log ++ [r] } }) hx .idle

theorem State.channelData_eq (s : State) (c : Nat) (x : Channel) {v : ChannelView} (hv : s.viewChannel c x.state = v) :
    s.channelData c x =
      be 1 c ++ be 1 x.state.value ++ be 1 v.cause ++
        be 1 (flag v.gaugeLost + 2 * flag v.meterLost + 4 * flag v.haltOut + 8 * flag v.runOut + 16 * flag v.confirmed +
          32 * flag x.report.isSome) ++ be 4 v.ticket ++
        be 2 v.supplier ++ be 1 v.set ++ be 2 v.ordered ++ be 4 v.meterStart ++
        be 4 (match x.report with | some y => y.count.toNat | none => 0) ++
        be 1 (match x.report with | some y => flag y.running | none => 0) ++ be 4 v.delivered ++ be 2 v.startLevel ++
        be 4 v.energy ++ be 1 v.highHalts ++ be 1 v.opened.day ++ be 3 v.opened.second ++ be 2 v.left ++
        be 1 s.deliveries.log.length ++
        be 1 (s.deliveries.channels.cells.filter fun y => y.held.isSome).length ++ be 4 s.deliveries.opened ++
        be 4 s.deliveries.taken := by
  have hcount : (x.report.elim 0 fun y => y.count.toNat) = match x.report with | some y => y.count.toNat | none => 0 := by
    cases x.report <;> rfl
  have hrunning : (x.report.elim 0 fun y => flag y.running) = match x.report with | some y => flag y.running | none => 0 := by
    cases x.report <;> rfl
  unfold channelData
  simp only [hv, flagBits_six, Stamp.bytes, heldCount_eq, hcount, hrunning]
  rw [← List.append_assoc _ (be 1 _) (be 3 _)]

/-- Settles O34: the oldest record and the earliest held one; the data of READ CHANNEL by the state of the channel. -/
theorem deliveryRecordsAndChannels : Obligations.DeliveryRecordsAndChannels := by
  refine ⟨?_, ?_⟩
  · intro s tag h t
    have hexec := exec_takeDeliveryRecord_offered h
    refine ⟨fun hempty => ?_, fun r log hlog => ?_⟩
    · have hrefused : ownTakeDeliveryRecord [] t = (t, some (refuse .empty 0)) := by
        have hlog : t.deliveries.log = [] := hempty
        rw [ownTakeDeliveryRecord, hlog]
      rw [hexec, hrefused]
      rfl
    · intro left data
      have hdata : r.bytes ++ be 1 log.length = data := by rw [DeliveryRecord.bytes_eq] <;> rfl
      have hown := ownTakeDeliveryRecord_of_cons (s := t) hlog
      rw [hown, hdata] at hexec
      refine ⟨?_, fun hnone => ?_, fun c x g n hx hs hleast => ?_⟩
      · rw [← hdata, List.length_append, DeliveryRecord.length_bytes, length_be]
      · have hrelease : State.releaseHeld { t with deliveries := left } = { t with deliveries := left } := by
          rw [State.releaseHeld, Deliveries.earliestHeld_of_none (d := left) hnone]
        exact hexec.trans (congrArg (fun u => (.next (deliver .office (done u data)).transmit : Result)) hrelease)
      · have hrelease := State.releaseHeld_of_some (s := { t with deliveries := left }) hx
          (Deliveries.earliestHeld_of_least (d := left) hx hs hleast)
        exact hexec.trans (congrArg (fun u => (.next (deliver .office (done u data)).transmit : Result)) hrelease)
  · intro s p tag c hc h t
    have hexec := exec_readChannel_offered hc h
    refine ⟨fun hrange => ?_, fun x hx => ?_⟩
    · have hrefused : ownReadChannel [c] t = (t, some (refuse .range 1)) := by
        have hnone : t.channel (arg [c] 1) = none := Table.get_eq_none _ hrange
        rw [ownReadChannel, hnone]
      rw [hexec, hrefused]
      rfl
    · let v := s.viewChannel c x.state
      refine ⟨x.state.value, v.cause,
        flag v.gaugeLost + 2 * flag v.meterLost + 4 * flag v.haltOut + 8 * flag v.runOut + 16 * flag v.confirmed, v.ticket,
        v.supplier, v.set, v.ordered, v.meterStart, v.delivered, v.startLevel, v.energy, v.highHalts, v.opened.day,
        v.opened.second, v.left, ?_, ?_, ?_, ?_, fun hidle => ?_, fun d hd => ?_, fun r n hheld => ?_⟩
      · have hx' : t.channel c = some x := (congrArg (fun y : Deliveries => y.channels.get c) (s.judged_deliveries p)).trans hx
        rw [hexec, ownReadChannel_of_channel hx', State.channelData_judged, State.channelData_eq s c x (v := v) rfl] <;> rfl
      · cases x.state <;> rfl
      · simp only [v]
        rcases x.state with _ | _ | _ | ⟨_, _ | _ | _⟩ | _ | _ <;> rfl
      · simp only [v]
        cases x.state <;> rfl
      · simp only [v, hidle]
        exact ⟨rfl, rfl, rfl, rfl, rfl, rfl, rfl, rfl, rfl, rfl, rfl, rfl⟩
      · simp only [v]
        rw [Channel.open_] at hd
        cases hs : x.state with
        | idle => simp [hs] at hd
        | heldLog r n => simp [hs] at hd
        | _ =>
          simp only [hs, Option.some.injEq] at hd
          subst hd
          exact ⟨rfl, rfl, rfl, rfl, rfl, rfl, rfl, rfl, rfl, rfl, rfl, rfl⟩
      · simp only [v, hheld]
        exact ⟨rfl, rfl, rfl, rfl, rfl, rfl, rfl, rfl, rfl, rfl, rfl, rfl⟩

end Sys2Proof.Machine
end

section
/-! PROOFS. The settings of a stage, and READ STAGE (07). -/

namespace Sys2Proof.Machine

/-- What a check reads of a stage where it reads nothing of one that does not exist. -/
theorem Stage.getD_reset {p : Stage → Bool} (h : p .reset = false) (o : Option Stage) : p (o.getD .reset) = o.any p := by
  cases o with
  | none => exact h
  | some x => rfl

theorem State.exists_stage {s : State} {k : Nat} (h : decide (7 < k) = false) : ∃ x, s.stage k = some x := by
  refine Option.isSome_iff_exists.1 ((s.stages.get_isSome k).trans (decide_eq_true ?_))
  have := of_decide_eq_false h
  omega

/-! ### ASSIGN INPUT -/

theorem denied_setting (ws : Windows) (set : Nat) :
    denied (if set != 255 then ws.deniesSet .crew set else none) 3 =
      (decide (set ≠ 255) && (ws.deniesSet .crew set).isSome,
        .refused .denied 3 ((if set = 255 then none else ws.deniesSet .crew set).getD 0xFF)) := by
  by_cases h : set = 255 <;> simp [denied, h]

theorem Stage.setOf_other_inputOf (x : Stage) (i : Nat) :
    x.setOf (inputOf i).other = if i = 0 then x.inputB else x.inputA := by
  by_cases h : i = 0 <;> simp [inputOf, h, Input.other, setOf]

theorem inputOf_eq (i : Nat) : inputOf i = if i = 0 then .a else .b := by
  by_cases h : i = 0 <;> simp [inputOf, h]

theorem exec_assignInput_offered {s : State} {tag : Byte} {k i set : Nat} (hk : k < 256) (hi : i < 256) (hs : set < 256)
    (h : Offered s .yard 0x38 tag (be 1 k ++ be 1 i ++ be 1 set)) :
    exec (.assignInput .yard) s =
      .next (deliver .yard (unlessRefused (s.judged .yard)
        [(decide (7 < k), .refused .range 1 0xFF), (decide (1 < i), .refused .range 2 0xFF),
          (decide (11 < set ∧ set ≠ 255), .refused .range 3 0xFF),
          ((s.stage k).any fun x => x.isChanging, .refused .state 1 0xFF),
          ((s.stage k).any fun x => x.activeInput == some (if i = 0 then .a else .b), .refused .state 2 0xFF),
          (decide (set ≠ 255 ∧ s.set set = none), .refused .absent 3 0xFF),
          (decide (set ≠ 255) && (s.windows.deniesSet .crew set).isSome,
            .refused .denied 3 ((if set = 255 then none else s.windows.deniesSet .crew set).getD 0xFF)),
          (decide (set ≠ 255) && (s.stage k).any fun x => (if i = 0 then x.inputB else x.inputA) == some set,
            .refused .conflict 3 0xFF)]
        (done ((s.judged .yard).changeStage k fun x =>
          match inputOf i with
          | .a => { x with inputA := if set != 255 then some set else none }
          | .b => { x with inputB := if set != 255 then some set else none }) []))).transmit := by
  have hsetting : (set != 255) = decide (set ≠ 255) := bne_eq_decide_ne _ _
  have hrange : decide (11 < set ∧ set ≠ 255) = (decide (11 < set) && set != 255) := by rw [Bool.decide_and, hsetting]
  have habsent : decide (set ≠ 255 ∧ s.set set = none) = (set != 255 && (s.set set).isNone) := by
    rw [Bool.decide_and, hsetting, Option.decide_eq_none_eq_isNone]
  have hother : (fun x : Stage => (if i = 0 then x.inputB else x.inputA) == some set) =
      fun x => x.setOf (inputOf i).other == some set := funext fun x => by rw [Stage.setOf_other_inputOf]
  have hresetOther : (Stage.reset.setOf (inputOf i).other == some set) = false := by
    rw [Stage.setOf_other_inputOf, Stage.reset, ite_self]
    rfl
  rw [exec_of_fields (row := .assignInput) (owner := ownAssignInput) rfl h rfl [(1, k), (1, i), (1, set)] rfl
    (by simp [*]) (by simp [encodeFields]), ownAssignInput, hrange, habsent, hother, ← denied_setting, ← inputOf_eq,
    ← hsetting, ← Stage.getD_reset (p := fun x => x.isChanging) rfl,
    ← Stage.getD_reset (p := fun x => x.activeInput == some (inputOf i)) rfl,
    ← Stage.getD_reset (p := fun x => x.setOf (inputOf i).other == some set) hresetOther]
  rfl

/-! ### SET STAGE -/

theorem exec_setStage_offered {s : State} {tag : Byte} {k auto dead : Nat} (hk : k < 256) (ha : auto < 256)
    (hd : dead < 256) (h : Offered s .yard 0x39 tag (be 1 k ++ be 1 auto ++ be 1 dead)) :
    exec (.setStage .yard) s =
      .next (deliver .yard (unlessRefused (s.judged .yard)
        [(decide (7 < k), .refused .range 1 0xFF), (decide (1 < auto), .refused .range 2 0xFF),
          (decide (dead = 0 ∨ 10 < dead), .refused .range 3 0xFF)]
        (done ((s.judged .yard).changeStage k fun x => { x with auto := auto == 1, deadTime := dead }) []))).transmit := by
  rw [exec_of_fields (row := .setStage) (owner := ownSetStage) rfl h rfl [(1, k), (1, auto), (1, dead)] rfl
    (by simp [*]) (by simp [encodeFields]), ownSetStage, Bool.decide_or, ← beq_eq_decide]
  rfl

/-! ### READ STAGE -/

theorem exec_readStage_offered {s : State} {p : Port} {tag : Byte} {k : Nat} (hk : k < 256)
    (h : Offered s p 0x3D tag (be 1 k)) :
    exec (.readStage p) s = .next (deliver p (ownReadStage [k] (s.judged p))).transmit :=
  exec_of_fields (row := .readStage) (owner := ownReadStage) rfl h (by cases p <;> rfl) [(1, k)] rfl (by simp [hk])
    (by simp [encodeFields])

theorem State.stageData_judged (s : State) (p : Port) (k : Nat) (x : Stage) :
    (s.judged p).stageData k x = s.stageData k x := by
  cases p <;> rfl

/-- R140: the state of the stage and its settings. -/
def Stage.headBytes (x : Stage) (k : Nat) : List Byte :=
  be 1 k ++ be 1 x.state.value ++ be 1 (inputValue x.activeInput) ++ be 1 (setValue x.activeSet) ++
    be 1 (setValue x.inputA) ++ be 1 (setValue x.inputB) ++ be 1 (flag x.auto) ++ be 1 x.deadTime

/-- R140: the flags, the board report and the meter stations. -/
def State.stageReport (s : State) (k : Nat) (x : Stage) : List Byte :=
  be 1 (flagBits [s.line.enrolled .board k, x.lost, x.report.isSome, x.lossEpisode, s.closeOutstanding k, x.isChanging]) ++
    (be 1 (x.report.elim 0 BoardReport.inputs) ++ be 2 x.demand) ++ be 1 (s.line.metersOf k).length

theorem State.stageData_eq (s : State) (k : Nat) (x : Stage) :
    s.stageData k x = x.headBytes k ++ s.stageReport k x ++ s.contextBytes x x.context := by
  simp only [stageData, Stage.headBytes, stageReport, List.append_assoc]

theorem flagBits_four (a b c d : Bool) : flagBits [a, b, c, d] = flag a + 2 * flag b + 4 * flag c + 8 * flag d := by
  simp only [flagBits]
  omega

theorem State.boardOrderValue_offered (s : State) (n : Nat) :
    s.boardOrderValue (.offered n) =
      if s.line.waiting.any fun y => y.serial == n then 1
      else match s.line.queued n with
        | some y => if y.committed then 3 else 2
        | none => 2 := by
  simp only [boardOrderValue, Line.waits]
  cases s.line.queued n <;> rfl

theorem Stage.headBytes_eq (x : Stage) (k : Nat) :
    x.headBytes k =
      be 1 k ++
        be 1 (match x.state with
          | .unknown => 0
          | .dark => 1
          | .fed _ => 2
          | .changing _ => 3
          | .conflict => 4) ++
        be 1 (match x.activeInput with | none => 0 | some .a => 1 | some .b => 2) ++
        be 1 (match x.activeInput with
          | none => 255
          | some .a => x.inputA.getD 255
          | some .b => x.inputB.getD 255) ++
        be 1 (x.inputA.getD 255) ++ be 1 (x.inputB.getD 255) ++ be 1 (flag x.auto) ++ be 1 x.deadTime := by
  unfold headBytes activeSet
  have hstate : x.state.value = match x.state with
      | .unknown => 0
      | .dark => 1
      | .fed _ => 2
      | .changing _ => 3
      | .conflict => 4 := by cases x.state <;> rfl
  rw [hstate]
  rcases x.activeInput with _ | _ | _ <;> rfl

theorem State.stageReport_eq (s : State) (k : Nat) (x : Stage) :
    s.stageReport k x =
      be 1
          (flag (s.line.station .board k).isSome + 2 * flag x.lost + 4 * flag x.report.isSome +
            8 * flag x.lossEpisode + 16 * flag (s.closeOutstanding k) +
            32 * (match x.state with | .changing _ => 1 | _ => 0)) ++
        (match x.report with
          | some r =>
            be 1 (flag r.closedA + 2 * flag r.closedB + 4 * flag r.liveA + 8 * flag r.liveB) ++ be 2 r.demand
          | none => be 1 0 ++ be 2 0) ++
        be 1 ((List.range 12).filter fun m => (s.line.station .meter m).any fun st => st.stage == k).length := by
  have hchanging : flag x.isChanging = match x.state with | .changing _ => 1 | _ => 0 := by
    unfold Stage.isChanging Stage.context
    cases x.state <;> rfl
  have hreport : be 1 (x.report.elim 0 BoardReport.inputs) ++ be 2 x.demand =
      match x.report with
      | some r => be 1 (flag r.closedA + 2 * flag r.closedB + 4 * flag r.liveA + 8 * flag r.liveB) ++ be 2 r.demand
      | none => be 1 0 ++ be 2 0 := by
    unfold Stage.demand
    cases x.report with
    | none => rfl
    | some r => rw [Option.elim_some, BoardReport.inputs, flagBits_four]; rfl
  rw [stageReport, flagBits_six, hchanging, hreport]
  simp only [Line.metersOf, Option.elim_false_eq_any] <;> rfl

theorem State.contextBytes_some (s : State) (x : Stage) (c : Changeover) :
    s.contextBytes x (some c) =
      be 1 (match c.kind with | .requested => 1 | .restore => 2 | .fuelLow => 3 | .supplyLoss => 4) ++
        be 1 (match c.step with
          | .preparing => 1
          | .boundary => 2
          | .opening => 3
          | .dead => 4
          | .closing => 5
          | .reverting => 6) ++
        be 1 (match c.source with | none => 0 | some .a => 1 | some .b => 2) ++
        be 1 (match c.target with | .a => 1 | .b => 2) ++
        be 1 ((match c.target with | .a => x.inputA | .b => x.inputB).getD 255) ++
        be 1 (match c.source with
          | none => 255
          | some .a => x.inputA.getD 255
          | some .b => x.inputB.getD 255) ++
        be 2 (c.rate.getD 0) ++ be 1 c.stations.length ++
        be 1 (c.stations.filter fun l => l.state == .ended).length ++
        be 1 (match c.board with
          | .none => 0
          | .offered n =>
            if s.line.waiting.any fun y => y.serial == n then 1
            else match s.line.queued n with
              | some y => if y.committed then 3 else 2
              | none => 2
          | .ended => 4) ++
        be 1 (flag c.aborted) ++ be 2 (match c.timer with | some y => y.left | none => 0) ++
        be 1 c.started.day ++ be 3 c.started.second := by
  have hkind : c.kind.value = match c.kind with | .requested => 1 | .restore => 2 | .fuelLow => 3 | .supplyLoss => 4 := by
    cases c.kind <;> rfl
  have hstep : c.step.value = match c.step with
      | .preparing => 1
      | .boundary => 2
      | .opening => 3
      | .dead => 4
      | .closing => 5
      | .reverting => 6 := by cases c.step <;> rfl
  have hsource : inputValue c.source = match c.source with | none => 0 | some .a => 1 | some .b => 2 := by
    rcases c.source with _ | _ | _ <;> rfl
  have htarget : inputValue (some c.target) = match c.target with | .a => 1 | .b => 2 := by cases c.target <;> rfl
  have hincoming : setValue (x.setOf c.target) = (match c.target with | .a => x.inputA | .b => x.inputB).getD 255 := by
    cases c.target <;> rfl
  have houtgoing : setValue (c.source.bind x.setOf) = match c.source with
      | none => 255
      | some .a => x.inputA.getD 255
      | some .b => x.inputB.getD 255 := by
    rcases c.source with _ | _ | _ <;> rfl
  have hboard : s.boardOrderValue c.board = match c.board with
      | .none => 0
      | .offered n =>
        if s.line.waiting.any fun y => y.serial == n then 1
        else match s.line.queued n with
          | some y => if y.committed then 3 else 2
          | none => 2
      | .ended => 4 := by
    cases c.board with
    | offered n => exact s.boardOrderValue_offered n
    | _ => rfl
  have htimer : (c.timer.elim 0 fun t => t.left) = match c.timer with | some y => y.left | none => 0 := by
    cases c.timer <;> rfl
  simp only [contextBytes]
  rw [hkind, hstep, hsource, htarget, hincoming, houtgoing, hboard, htimer, List.countP_eq_length_filter, Stamp.bytes,
    ← List.append_assoc]

theorem State.length_contextBytes (s : State) (x : Stage) (c : Option Changeover) : (s.contextBytes x c).length = 18 := by
  cases c <;> simp [contextBytes, Stamp.bytes]

/-- Settles O35: the requests by their checks; the three parts of the data of READ STAGE. -/
theorem stageSettingsAndReading : Obligations.StageSettingsAndReading := by
  refine ⟨⟨?_, ?_⟩, ?_⟩
  · intro s tag k i set hk hi hs h t input other
    obtain ⟨hrefused, haccepted⟩ := firstDecides_of
      (fun x => exec (.assignInput .yard) s = .next (deliver .yard x).transmit) (exec_assignInput_offered hk hi hs h)
    refine ⟨hrefused, fun hnone => ?_⟩
    obtain ⟨x, hx⟩ := State.exists_stage (hnone (decide (7 < k), .refused .range 1 0xFF) (by simp))
    refine ⟨x, hx, ?_⟩
    intro value
    have hvalue : (if set != 255 then some set else none) = value := by
      by_cases h255 : set = 255 <;> simp [value, h255]
    rw [haccepted hnone, hvalue, State.changeStage_eq (s := s.judged .yard) hx, inputOf_eq]
    by_cases h0 : i = 0
    · rw [if_pos h0, if_pos h0]
      rfl
    · rw [if_neg h0, if_neg h0]
      rfl
  · intro s tag k auto dead hk ha hd h t
    obtain ⟨hrefused, haccepted⟩ := firstDecides_of
      (fun x => exec (.setStage .yard) s = .next (deliver .yard x).transmit) (exec_setStage_offered hk ha hd h)
    refine ⟨hrefused, fun hnone => ?_⟩
    obtain ⟨x, hx⟩ := State.exists_stage (hnone (decide (7 < k), .refused .range 1 0xFF) (by simp))
    refine ⟨x, hx, ?_⟩
    rw [haccepted hnone, State.changeStage_eq (s := s.judged .yard) hx]
    rfl
  · intro s p tag k hk h t
    have hexec := exec_readStage_offered hk h
    refine ⟨fun hrange => ?_, fun x hx => ⟨x.headBytes k, s.stageReport k x, s.contextBytes x x.context, ?_, ?_, ?_,
      fun hc => ?_, fun c hc => ?_, ?_⟩⟩
    · have hrefused : ownReadStage [k] t = (t, some (refuse .range 1)) := by
        have hnone : t.stage (arg [k] 1) = none := Table.get_eq_none _ hrange
        rw [ownReadStage, hnone]
      rw [hexec, hrefused]
      rfl
    · have hx' : t.stage (arg [k] 1) = some x := (congrArg (fun y : Table 8 Stage => y.get k) (s.judged_stages p)).trans hx
      have hdone : ownReadStage [k] t = done t (s.stageData k x) := by
        rw [ownReadStage, hx', ← State.stageData_judged s p]
        rfl
      rw [hexec, hdone, State.stageData_eq]
      rfl
    · exact Stage.headBytes_eq x k
    · exact s.stageReport_eq k x
    · have hnone : x.context = none := by
        unfold Stage.context
        cases hs : x.state with
        | changing c => exact absurd hs (hc c)
        | _ => rfl
      rw [hnone]
      rfl
    · have hsome : x.context = some c := by rw [Stage.context, hc]
      rw [hsome]
      exact s.contextBytes_some x c
    · rw [List.length_append, List.length_append, State.length_contextBytes]
      simp [Stage.headBytes, State.stageReport]

end Sys2Proof.Machine
end

section
/-! PROOFS. How changeovers begin and are aborted (07). -/

namespace Sys2Proof.Machine

/-! ### The checks on an incoming set -/

theorem incomingChecks_eq (s : State) (k : Nat) (set : Option Nat) (field : Nat) :
    incomingChecks s k set field =
      [(decide (set = none), .refused .absent field 0xFF),
        (decide (set.bind s.lease = none), .refused .notLeased field 0xFF),
        ((set.bind fun i => s.windows.deniesSet .crew i).isSome,
          .refused .denied field ((set.bind fun i => s.windows.deniesSet .crew i).getD 0xFF)),
        (set.any fun i =>
            s.setStateOf i == some .faulted || s.setStateOf i == some .lost || s.setStateOf i == some .unknown,
          .refused .state field 0xFF),
        (set.any fun i => s.setStateOf i == some .online && !s.headroom i k, .refused .noHeadroom field 0xFF)] := by
  rw [incomingChecks, Option.decide_eq_none_eq_isNone, Option.decide_eq_none_eq_isNone]
  cases set <;> rfl

theorem StageState.isFed_eq (q : StageState) : q.isFed = (q == .fed .a || q == .fed .b) := by
  cases q with
  | fed i => cases i <;> rfl
  | _ => rfl

/-- A set that an input of a stage names, none of a stage that does not exist. -/
theorem Stage.setOf_getD_reset (o : Option Stage) (i : Input) :
    (o.getD .reset).setOf i = o.bind fun x => match i with | .a => x.inputA | .b => x.inputB := by
  cases o <;> cases i <;> rfl

/-! ### CHANGE OVER and RESTORE STAGE -/

/-- R126: the checks of CHANGE OVER where the stage would go over to a set. -/
def changeOverChecks (s : State) (k : Nat) (set : Option Nat) : List (Bool × Reply) :=
  [(s.loader.resetDue, .refused .state 0 0xFF),
    (decide (7 < k), .refused .range 1 0xFF), (decide (s.line.station .board k = none), .refused .absent 1 0xFF),
    (!(s.stage k).any fun x => x.state == .fed .a || x.state == .fed .b, .refused .state 1 0xFF),
    ((s.stage k).any fun x => x.lost, .refused .state 1 0xFF)] ++ incomingChecks s k set 1

theorem exec_changeOver_offered {s : State} {tag : Byte} {k : Nat} (hk : k < 256) (h : Offered s .yard 0x3A tag (be 1 k)) :
    exec (.changeOver .yard) s =
      .next (deliver .yard (unlessRefused (s.judged .yard)
        (changeOverChecks s k
          (((s.stage k).getD .reset).setOf ((((s.stage k).getD .reset).activeInput.getD .a).other)))
        (((s.judged .yard).beginChangeover k .requested (some (((s.stage k).getD .reset).activeInput.getD .a))
          ((((s.stage k).getD .reset).activeInput.getD .a).other)).finish, some (.done [])))).transmit := by
  have hfed : (fun x : Stage => x.state == .fed .a || x.state == .fed .b) = fun x => x.state.isFed :=
    funext fun x => x.state.isFed_eq.symm
  rw [exec_of_fields (row := .changeOver) (owner := finishing ownChangeOver) rfl h rfl [(1, k)] rfl (by simp [hk])
    (by simp [encodeFields]), finishing, ownChangeOver,
    finished_unlessRefused (by simp [incomingChecks, denied, refuse]), changeOverChecks, hfed,
    ← Line.not_enrolled_eq, ← Stage.getD_reset (p := fun x => x.state.isFed) rfl,
    ← Stage.getD_reset (p := fun x => x.lost) rfl]
  rfl

/-- A check that refuses hides those after it, and what acceptance would do. -/
theorem unlessRefused_of_fourth {b : Bool} (h : b = true) (s : State) (b₁ b₂ b₃ : Bool) (r₁ r₂ r₃ r : Reply) (l l' : List (Bool × Reply))
    (act act' : Answered) :
    unlessRefused s ((b₁, r₁) :: (b₂, r₂) :: (b₃, r₃) :: (b, r) :: l) act =
      unlessRefused s ((b₁, r₁) :: (b₂, r₂) :: (b₃, r₃) :: (b, r) :: l') act' := by
  simp only [unlessRefused_cons, h, if_true]

theorem exec_restoreStage_offered {s : State} {tag : Byte} {k i : Nat} (hk : k < 256) (hi : i < 256)
    (h : Offered s .yard 0x3C tag (be 1 k ++ be 1 i)) :
    exec (.restoreStage .yard) s =
      .next (deliver .yard (unlessRefused (s.judged .yard)
        ([(s.loader.resetDue, .refused .state 0 0xFF),
            (decide (7 < k), .refused .range 1 0xFF), (decide (1 < i), .refused .range 2 0xFF),
            (decide (s.line.station .board k = none), .refused .absent 1 0xFF),
            (!(s.stage k).any fun x => x.state == .dark, .refused .state 1 0xFF),
            ((s.stage k).any fun x => x.lost, .refused .state 1 0xFF)] ++
          incomingChecks s k (((s.stage k).getD .reset).setOf (inputOf i)) 2)
        (((s.judged .yard).beginChangeover k .restore none (inputOf i)).finish, some (.done [])))).transmit := by
  rw [exec_of_fields (row := .restoreStage) (owner := finishing ownRestoreStage) rfl h rfl [(1, k), (1, i)] rfl
    (by simp [*]) (by simp [encodeFields]), finishing, ownRestoreStage,
    finished_unlessRefused (by simp [incomingChecks, denied, refuse]), ← Line.not_enrolled_eq,
    ← Stage.getD_reset (p := fun x => x.state == .dark) rfl, ← Stage.getD_reset (p := fun x => x.lost) rfl]
  rfl

/-! ### Headroom -/

theorem Table.map_zipIdx_eq {n : Nat} {α β : Type} (t : Table n α) (f : α → Nat → β) (d : β) :
    t.cells.zipIdx.map (fun x => f x.1 x.2) =
      (List.range n).map fun j => match t.get j with | some x => f x j | none => d := by
  have hlen := t.size_eq
  refine List.ext_getElem (by simp [hlen]) fun j hj _ => ?_
  have hj' : j < t.cells.length := by simpa using hj
  have hget : t.get j = some t.cells[j] := by rw [Table.get, List.getElem?_eq_getElem hj']
  simp [hget]

theorem State.loadFor_eq (s : State) (i k : Nat) :
    s.loadFor i k =
      ((List.range 8).map fun j =>
        if j = k then 0
        else match s.stage j with
          | some x => if x.fedSet = some i ∨ x.incoming = some i then x.demand else 0
          | none => 0).sum := by
  have hmap := Table.map_zipIdx_eq s.stages (fun x j => if j == k then 0 else x.loadOn i) 0
  rw [loadFor, hmap]
  refine congrArg List.sum (List.map_congr_left fun j _ => ?_)
  rw [State.stage]
  cases s.stages.get j with
  | none => simp
  | some x => simp [Stage.loadOn]

theorem State.headroom_iff (s : State) (i k : Nat) :
    s.headroom i k = true ↔ ∃ l, s.lease i = some l ∧
      s.loadFor i k + (match s.stage k with | some x => x.demand | none => 0) ≤ l.rating := by
  have hdemand : (s.stage k).elim 0 Stage.demand = match s.stage k with | some x => x.demand | none => 0 := by
    cases s.stage k <;> rfl
  rw [headroom, hdemand]
  cases s.lease i <;> simp

/-! ### ABORT CHANGEOVER -/

theorem exec_abortChangeover_offered {s : State} {tag : Byte} {k : Nat} (hk : k < 256)
    (h : Offered s .yard 0x3B tag (be 1 k)) :
    exec (.abortChangeover .yard) s =
      .next (deliver .yard (finished (ownAbortChangeover [k] (s.judged .yard)))).transmit :=
  exec_of_fields (row := .abortChangeover) (owner := finishing ownAbortChangeover) rfl h rfl [(1, k)] rfl (by simp [hk])
    (by simp [encodeFields])

theorem ownAbortChangeover_of_context {s : State} {k : Nat} {c : Changeover} (hk : k ≤ 7) (h : s.context k = some c) :
    ownAbortChangeover [k] s = abortStep s k c := by
  have harg : s.context (arg [k] 1) = some c := h
  rw [ownAbortChangeover, harg]
  exact if_neg (Nat.not_lt.2 hk)

theorem State.boardUncommitted_iff (s : State) (c : Changeover) :
    s.boardUncommitted c = true ↔ ∃ n, c.board = .offered n ∧ s.line.uncommitted n = true := by
  rw [boardUncommitted]
  cases c.board <;> simp

theorem ownAbortChangeover_of_none {s : State} {k : Nat} (hk : k ≤ 7) (h : s.context k = none) :
    ownAbortChangeover [k] s = (s, some (refuse .state 1)) := by
  have harg : s.context (arg [k] 1) = none := h
  rw [ownAbortChangeover, harg]
  exact if_neg (Nat.not_lt.2 hk)

theorem Changeover.fallback_eq (c : Changeover) :
    c.fallback = match c.source with | some i => .fed i | none => .dark := by
  rw [fallback]
  cases c.source <;> rfl

/-! ### Automatic transfers -/

theorem ChangeKind.value_eq (q : ChangeKind) :
    q.value = match q with | .requested => 1 | .restore => 2 | .fuelLow => 3 | .supplyLoss => 4 := by
  cases q <;> rfl

theorem inputValue_some (i : Input) : inputValue (some i) = match i with | .a => 1 | .b => 2 := by cases i <;> rfl

/-- R138: the qualifications of a transfer to a set, each with its reason. -/
def State.transferReasons (s : State) (k : Nat) (x : Stage) (set : Option Nat) : List (Bool × Nat) :=
  [(x.lost, 7), (decide (set = none), 1), (decide (set.bind s.lease = none), 2),
    (set.any fun j => (s.set j).any fun r => r.fuelLow, 3),
    (set.any fun j => (s.windows.deniesSet .auto j).isSome, 4),
    (decide (set.bind s.setStateOf ≠ some .online ∧ set.bind s.setStateOf ≠ some .stopped ∧
      set.bind s.setStateOf ≠ some .cooling ∧ set.bind s.setStateOf ≠ some .warming), 5),
    (decide (set.bind s.setStateOf = some .online) && !set.any fun j => s.headroom j k, 6)]

/-- The number of the first pair that holds. -/
def firstReason : List (Bool × Nat) → Option Nat
  | [] => none
  | (b, n) :: rest => if b then some n else firstReason rest

theorem firstReason_of_none {l : List (Bool × Nat)} (h : ∀ q ∈ l, q.1 = false) : firstReason l = none := by
  induction l with
  | nil => rfl
  | cons q rest ih =>
    rw [firstReason, h q List.mem_cons_self, if_neg Bool.false_ne_true]
    exact ih fun y hy => h y (List.mem_cons_of_mem q hy)

theorem firstReason_of_first {before after : List (Bool × Nat)} {n : Nat} (h : ∀ q ∈ before, q.1 = false) :
    firstReason (before ++ (true, n) :: after) = some n := by
  induction before with
  | nil => rfl
  | cons q rest ih =>
    rw [List.cons_append, firstReason, h q List.mem_cons_self, if_neg Bool.false_ne_true]
    exact ih fun y hy => h y (List.mem_cons_of_mem q hy)

theorem State.noAlternate_eq (s : State) (k : Nat) (x : Stage) (target : Input) :
    s.noAlternate k x target = firstReason (s.transferReasons k x (x.setOf target)) := by
  simp only [noAlternate, transferReasons, firstReason]
  cases x.setOf target with
  | none => cases x.lost <;> rfl
  | some i =>
    have hstate : (!(s.setStateOf i == some .online || s.setStateOf i == some .stopped || s.setStateOf i == some .cooling ||
        s.setStateOf i == some .warming)) =
        decide (s.setStateOf i ≠ some .online ∧ s.setStateOf i ≠ some .stopped ∧ s.setStateOf i ≠ some .cooling ∧
          s.setStateOf i ≠ some .warming) := by
      rw [Bool.decide_and, Bool.decide_and, Bool.decide_and, ← bne_eq_decide_ne, ← bne_eq_decide_ne, ← bne_eq_decide_ne,
        ← bne_eq_decide_ne, Bool.not_or, Bool.not_or, Bool.not_or, Bool.and_assoc, Bool.and_assoc]
      rfl
    have hlease : decide (s.lease i = none) = (s.lease i).isNone := Option.decide_eq_none_eq_isNone _
    have honline : decide (s.setStateOf i = some .online) = (s.setStateOf i == some .online) := (beq_eq_decide _ _).symm
    have hset : decide (some i = none) = false := rfl
    simp only [Option.bind_some, Option.any_some, hset, hstate, hlease, honline, Option.elim_false_eq_any,
      Bool.false_eq_true, if_false]

theorem State.considerTransfer_of_fed {s : State} {k : Nat} {x : Stage} {i : Input} (kind : ChangeKind)
    (hx : s.stage k = some x) (hs : x.state = .fed i) (hauto : x.auto = true) (hdue : s.loader.resetDue = false) :
    s.considerTransfer k kind =
      match firstReason (s.transferReasons k x (x.setOf i.other)) with
      | none => s.beginChangeover k kind (some i) i.other
      | some reason =>
        s.post .noAlternate
          (be 1 k ++ be 1 kind.value ++ be 1 (inputValue (some i.other)) ++ be 1 (setValue (x.setOf i.other)) ++
            be 1 reason) := by
  simp only [considerTransfer, hx, hs, hauto, hdue, noAlternate_eq]
  rfl

theorem State.considerTransfer_stays {s : State} {k : Nat} {x : Stage} (kind : ChangeKind) (hx : s.stage k = some x)
    (h : (∀ i, x.state ≠ .fed i) ∨ x.auto = false ∨ s.loader.resetDue = true) : s.considerTransfer k kind = s := by
  cases hs : x.state with
  | fed i =>
    have hstays : (!x.auto || s.loader.resetDue) = true := by
      rcases h with h | h | h
      · exact absurd hs (h i)
      · rw [h]; rfl
      · rw [h, Bool.or_true]
    simp only [considerTransfer, hx, hs, hstays, if_true]
  | _ => simp only [considerTransfer, hx, hs]

/-! ### Supply loss -/

theorem Told.exempt_eq (k : Nat) (set : Option Nat) (m : Told) :
    m.exempt k set =
      match m with
      | .fuelLowRaised j except => if set = some j then .fuelLowRaised j (k :: except) else m
      | _ => m := by
  cases m with
  | fuelLowRaised j except => simp [exempt]
  | _ => rfl

theorem State.failedSet_iff (s : State) (i : Nat) :
    s.failedSet i = true ↔ s.setStateOf i = some .faulted ∨ s.setStateOf i = some .lost := by
  rw [failedSet, Bool.or_eq_true, beq_iff_eq, beq_iff_eq]

theorem State.supplyLost_iff (s : State) (x : Stage) (i : Input) :
    s.supplyLost x i = true ↔
      (∃ j, x.setOf i = some j ∧ (s.setStateOf j = some .faulted ∨ s.setStateOf j = some .lost)) ∨
        ∃ r, x.report = some r ∧ r.live i = false := by
  rw [supplyLost, Bool.or_eq_true]
  refine or_congr ?_ ?_
  · simp only [← failedSet_iff]
    cases x.setOf i <;> simp
  · cases x.report <;> simp

theorem State.judgeSupply_of_fed {s : State} {k : Nat} {x : Stage} {i : Input} (hx : s.stage k = some x)
    (hs : x.state = .fed i) :
    s.judgeSupply k =
      if s.supplyLost x i then
        if x.lossEpisode then s
        else
          ({ s.withStage k { x with lossEpisode := true } with
            told := s.told.map (Told.exempt k (x.setOf i)) } : State).considerTransfer k .supplyLoss
      else s.withStage k { x with lossEpisode := false } := by
  simp only [judgeSupply, hx, hs, changeStage_eq hx]

theorem Stage.outgoing_of_changing (x : Stage) {c : Changeover} (h : x.state = .changing c) :
    x.outgoing = match c.source with | none => none | some .a => x.inputA | some .b => x.inputB := by
  simp only [outgoing, context, h, Option.bind_some]
  rcases c.source with _ | _ | _ <;> rfl

theorem State.eachStage_congr {f g : State → Nat → State} (h : ∀ u k, f u k = g u k) (s : State) :
    s.eachStage f = (List.range 8).foldl g s := by
  rw [eachStage, funext fun u => funext (h u)]

/-- Settles O36: the requests by their checks or by the step of the changeover; the transfers by their reasons. -/
theorem changeoversBeginAndAbort : Obligations.ChangeoversBeginAndAbort := by
  refine ⟨⟨?_, ?_, fun s i k => ?_, fun _ _ _ _ _ => rfl⟩, ?_, fun s k x kind hx =>
    ⟨State.considerTransfer_stays kind hx, fun i hs hauto hdue => ?_⟩, fun s k x hx => ⟨fun hs => ?_, fun i hs => ?_⟩,
    fun s i except => ?_, fun s i => ?_⟩
  · intro s tag k hk h t active target set
    have hexec := exec_changeOver_offered hk h
    have hdecides (hact : exec (.changeOver .yard) s =
        .next (deliver .yard (unlessRefused t (changeOverChecks s k set)
          ((t.beginChangeover k .requested (some active) target).finish, some (.done [])))).transmit) := by
      rw [changeOverChecks, incomingChecks_eq] at hact
      exact firstDecides_of (fun x => exec (.changeOver .yard) s = .next (deliver .yard x).transmit) hact
    refine hdecides ?_
    by_cases hfed : ((s.stage k).any fun x => x.state == .fed .a || x.state == .fed .b) = true
    · obtain ⟨x, hx, hs⟩ := (Option.any_eq_true _ _).1 hfed
      have hfedOn : x.state = .fed .a ∨ x.state = .fed .b := by simpa using hs
      have hactive : ((s.stage k).getD .reset).activeInput.getD .a = active := by
        simp only [active, hx, Option.getD_some, Option.any_some, Stage.activeInput]
        rcases hfedOn with hs | hs <;> rw [hs] <;> rfl
      have hother : active.other = target := by
        simp only [target]
        cases active <;> rfl
      have hset : ((s.stage k).getD .reset).setOf target = set := by
        rw [Stage.setOf_getD_reset] <;> rfl
      rw [hexec, hactive, hother, hset]
    · have hrefused : (!(s.stage k).any fun x => x.state == .fed .a || x.state == .fed .b) = true := by
        rw [Bool.not_eq_true', Bool.eq_false_iff]
        exact hfed
      exact hexec.trans (congrArg (fun a => (.next (deliver .yard a).transmit : Result))
        (unlessRefused_of_fourth hrefused _ _ _ _ _ _ _ _ _ _ _ _))
  · intro s tag k i hk hi h t target set
    have hexec := exec_restoreStage_offered hk hi h
    have hset : ((s.stage k).getD .reset).setOf (inputOf i) = set := by
      rw [Stage.setOf_getD_reset, inputOf_eq] <;> rfl
    rw [hset, incomingChecks_eq, inputOf_eq] at hexec
    exact firstDecides_of (fun x => exec (.restoreStage .yard) s = .next (deliver .yard x).transmit) hexec
  · rw [State.headroom_iff, State.loadFor_eq] <;> rfl
  · intro s tag k hk h t
    have hexec := exec_abortChangeover_offered hk h
    refine ⟨fun hrange => ?_, fun x hx hs => ?_, fun x c hx hs => ?_⟩
    · have hrefused : ownAbortChangeover [k] t = (t, some (refuse .range 1)) := if_pos hrange
      rw [hexec, hrefused]
      rfl
    · have hk7 := Nat.le_of_lt_succ (s.stages.lt_of_get hx)
      rw [hexec, ownAbortChangeover_of_none hk7 (State.context_of_not_changing (s := t) hx hs)]
      rfl
    · intro back
      have hk7 := Nat.le_of_lt_succ (s.stages.lt_of_get hx)
      have hback : c.fallback = back := c.fallback_eq
      have hown := ownAbortChangeover_of_context hk7 (State.context_of_changing (s := t) hx hs)
      rw [hown, abortStep, hback] at hexec
      refine ⟨fun hstep => ?_, fun hstep => ?_, fun hstep => ?_⟩
      · rcases hstep with hq | hq | ⟨hq, hboard⟩
        · rw [hexec, hq]
          rfl
        · rw [hexec, hq]
          rfl
        · rw [hexec, hq]
          simp only [(State.boardUncommitted_iff t c).2 hboard, if_true]
          rfl
      · rcases hstep with ⟨hq, hboard⟩ | hq | hq
        · have hcommitted : t.boardUncommitted c = false := by
            rw [Bool.eq_false_iff, Ne, State.boardUncommitted_iff]
            rintro ⟨n, hn, hu⟩
            exact Bool.false_ne_true ((hboard n hn).symm.trans hu)
          rw [hexec, hq]
          simp only [hcommitted, Bool.false_eq_true, if_false]
          rfl
        · rw [hexec, hq]
          rfl
        · rw [hexec, hq]
          rfl
      · have hchange : t.changeContext k (fun c => { c with aborted := true }) =
            t.withStage k { x with state := .changing { c with aborted := true } } := by
          rw [State.changeContext, State.changeStage_eq (s := t) hx, hs]
        rw [hstep] at hexec
        exact hexec.trans (congrArg (fun u : State =>
          (.next (deliver .yard (finished (done (u.enterClose k .reverting) []))).transmit : Result)) hchange)
  · intro target set state reasons
    have htarget : i.other = target := by cases i <;> rfl
    have hset : x.setOf i.other = set := by cases i <;> rfl
    have hconsider := State.considerTransfer_of_fed kind hx hs hauto hdue
    rw [hset, htarget] at hconsider
    refine ⟨fun hnone => ?_, fun before n after hreasons hbefore => ?_⟩
    · rw [hconsider, firstReason_of_none (l := s.transferReasons k x set) hnone]
    · have hfirst : firstReason (s.transferReasons k x set) = some n :=
        (congrArg firstReason hreasons).trans (firstReason_of_first hbefore)
      rw [hconsider, hfirst]
      simp only [ChangeKind.value_eq, inputValue_some]
      rfl
  · cases hq : x.state with
    | fed i => exact absurd hq (hs i)
    | _ => simp only [State.judgeSupply, hx, hq]
  · intro set lost
    have hset : x.setOf i = set := by cases i <;> rfl
    have hlost : s.supplyLost x i = true ↔ lost := by
      have hiff := s.supplyLost_iff x i
      cases i <;> exact hiff
    have hjudge := State.judgeSupply_of_fed hx hs
    refine ⟨fun h => ?_, fun h hepisode => ?_, fun h hepisode => ?_⟩
    · rw [hjudge, if_neg (mt hlost.1 h)]
      rfl
    · rw [hjudge, if_pos (hlost.2 h), if_pos hepisode]
    · rw [hjudge, if_pos (hlost.2 h), hepisode, if_neg Bool.false_ne_true, hset]
      have hexempt : Told.exempt k set = fun m => match m with
          | .fuelLowRaised j except => if set = some j then .fuelLowRaised j (k :: except) else m
          | _ => m := funext fun m => Told.exempt_eq k set m
      rw [hexempt]
      rfl
  · refine State.eachStage_congr (fun u k => ?_) s
    cases hx : u.stage k with
    | none => simp
    | some x =>
      cases hs : x.state with
      | fed j => cases j <;> simp [Stage.fedSet, hs, Stage.setOf]
      | _ => simp [Stage.fedSet, hs]
  · refine State.eachStage_congr (fun u k => ?_) s
    cases hx : u.stage k with
    | none => simp [State.context, hx]
    | some x =>
      cases hs : x.state with
      | changing c =>
        have houtgoing := x.outgoing_of_changing hs
        simp [State.context, Stage.context, hx, hs, houtgoing, c.fallback_eq, and_assoc] <;> rfl
      | _ => simp [State.context, Stage.context, hx, hs]

end Sys2Proof.Machine
end

section
/-! PROOFS. How changeovers end (07). -/

namespace Sys2Proof.Machine

/-! ### What engine work leaves as it is -/

/-- The stages, the deliveries, the billing and the tally are as they were. -/
structure State.KeepsFeeds (s u : State) : Prop where
  stages : u.stages = s.stages
  deliveries : u.deliveries = s.deliveries
  billing : u.billing = s.billing
  tally : u.tally = s.tally

namespace State.KeepsFeeds

theorem refl (s : State) : s.KeepsFeeds s := ⟨rfl, rfl, rfl, rfl⟩

theorem trans {s t u : State} (h : s.KeepsFeeds t) (h' : t.KeepsFeeds u) : s.KeepsFeeds u :=
  ⟨h'.stages.trans h.stages, h'.deliveries.trans h.deliveries, h'.billing.trans h.billing, h'.tally.trans h.tally⟩

theorem line {s u : State} (h : ∃ (l : Line) (m : List Told), u = { s with line := l, told := m }) : s.KeepsFeeds u := by
  obtain ⟨l, m, rfl⟩ := h
  exact ⟨rfl, rfl, rfl, rfl⟩

theorem post (s : State) (k : NoticeKind) (data : List Byte) : s.KeepsFeeds (s.post k data) :=
  ⟨s.post_stages k data, s.post_deliveries k data, s.post_billing k data, s.post_tally k data⟩

theorem enterSet (s : State) (i : Nat) (q : SetState) : s.KeepsFeeds (s.enterSet i q) := by
  cases h : s.set i with
  | none =>
    rw [State.enterSet, h]
    exact refl s
  | some r =>
    rw [State.enterSet_of_set h]
    exact ⟨post_stages _ _ _, post_deliveries _ _ _, post_billing _ _ _, post_tally _ _ _⟩

theorem recallEngine (s : State) (i : Nat) : s.KeepsFeeds (s.recallEngine i) := line (foldl_recall_frame _ s)

theorem foldl_recall (s : State) (ns : List Nat) : s.KeepsFeeds (ns.foldl State.recall s) := by
  obtain ⟨l, m, h, -⟩ := foldl_recall_serial ns s
  exact line ⟨l, m, h⟩

end State.KeepsFeeds

/-! ### Becoming feeding -/

theorem State.set_recallEngine (s : State) (i j : Nat) : (s.recallEngine i).set j = s.set j := by
  obtain ⟨l, m, h⟩ := foldl_recall_frame
    ((s.line.queue ++ s.line.waiting).filter fun c =>
      (c.order == .startEngine || c.order == .stopEngine) && c.object == i) s
  have hrecall : s.recallEngine i = { s with line := l, told := m } := h
  rw [hrecall]
  rfl

/-- R73: a set that becomes feeding though its engine is off. -/
theorem State.becomeFeeding_off {s : State} {i : Nat} {r : SetRecord} (h : s.set i = some r)
    (hr : r.state = .stopped ∨ ∃ n p, r.state = .cranking n p) :
    s.becomeFeeding i = (s.recallEngine i).enterSet i (.faulted .offWhileFeeding) := by
  unfold becomeFeeding
  rcases hr with hr | ⟨n, p, hr⟩
  · have hrecalled : (s.recallEngine i).set i = some r := (s.set_recallEngine i i).trans h
    simp only [setStateOf_of_set h, hr, SetState.name, faultSet_of_set hrecalled]
    simp
  · simp only [setStateOf_of_set h, hr, SetState.name, faultSet_of_set h]
    simp

theorem State.becomeFeeding_of_set {s : State} {i : Nat} {r : SetRecord} (h : s.set i = some r) :
    s.becomeFeeding i =
      match r.state with
      | .stopped => (s.recallEngine i).enterSet i (.faulted .offWhileFeeding)
      | .cranking _ _ => (s.recallEngine i).enterSet i (.faulted .offWhileFeeding)
      | .warming => s.enterSet i .online
      | .cooling => (match r.awaited with | some n => s.recall n | none => s).enterSet i .online
      | _ => s := by
  cases hr : r.state with
  | stopped => exact becomeFeeding_off h (.inl hr)
  | cranking n p => exact becomeFeeding_off h (.inr ⟨n, p, hr⟩)
  | cooling =>
    simp only [becomeFeeding, setStateOf_of_set h, hr, SetState.name, returnOnline, recallAwaited_of_set h] <;> rfl
  | _ => simp only [becomeFeeding, setStateOf_of_set h, hr, SetState.name]

theorem State.becomeFeeding_of_none {s : State} {i : Nat} (h : s.set i = none) : s.becomeFeeding i = s := by
  simp only [becomeFeeding, setStateOf, h, Option.map_none]

theorem State.KeepsFeeds.becomeFeeding (s : State) (i : Nat) : s.KeepsFeeds (s.becomeFeeding i) := by
  cases h : s.set i with
  | none =>
    rw [becomeFeeding_of_none h]
    exact refl s
  | some r =>
    rw [becomeFeeding_of_set h]
    split
    · exact (recallEngine s i).trans (enterSet _ _ _)
    · exact (recallEngine s i).trans (enterSet _ _ _)
    · exact enterSet _ _ _
    · refine trans ?_ (enterSet _ _ _)
      cases r.awaited with
      | none => exact refl s
      | some n =>
        obtain ⟨l, m, hl, -, -⟩ := s.recall_frame n
        exact line ⟨l, m, hl⟩
    · exact refl s

theorem Stage.activeSet_iff (x : Stage) (i : Nat) :
    x.activeSet = some i ↔ ∃ j,
      (x.state = .fed j ∨
        ∃ c, x.state = .changing c ∧ c.source = some j ∧ (c.step = .preparing ∨ c.step = .boundary ∨ c.step = .opening)) ∧
      x.setOf j = some i := by
  rw [activeSet, Option.bind_eq_some_iff]
  refine exists_congr fun j => and_congr_left fun _ => ?_
  unfold activeInput
  cases hs : x.state with
  | changing c => cases hstep : c.step <;> simp [hstep, ChangeStep.beforeDead]
  | _ => simp

theorem State.feeding_iff (s : State) (i : Nat) :
    s.feeding i = true ↔ ∃ k x, s.stage k = some x ∧ x.activeSet = some i := by
  simp only [feeding, anyStage, List.any_eq_true, beq_iff_eq, stage, Table.get, List.mem_iff_getElem?]
  exact ⟨fun ⟨x, ⟨k, hk⟩, hx⟩ => ⟨k, x, hk, hx⟩, fun ⟨k, x, hk, hx⟩ => ⟨x, ⟨k, hk⟩, hx⟩⟩

/-! ### A stage takes a state -/

/-- R73: the set of a stage that becomes FED becomes feeding. -/
def State.feedingFrom (u : State) (y : Stage) (q : StageState) : State :=
  match q with
  | .fed _ => (match y.activeSet with | some i => u.becomeFeeding i | none => u)
  | _ => u

theorem State.feedingFrom_eq (u : State) (y : Stage) (q : StageState) :
    u.feedingFrom y q = if q.isFed then y.activeSet.elim u u.becomeFeeding else u := by
  cases q with
  | fed i =>
    simp only [feedingFrom]
    cases y.activeSet <;> rfl
  | _ => rfl

theorem State.KeepsFeeds.feedingFrom (u : State) (y : Stage) (q : StageState) : u.KeepsFeeds (u.feedingFrom y q) := by
  unfold State.feedingFrom
  split
  · split
    · exact becomeFeeding _ _
    · exact refl _
  · exact refl _

/-- R121: the notice is posted of the stage as it then is. -/
theorem State.enterStage_eq {s : State} {k : Nat} {x : Stage} (h : s.stage k = some x) (q : StageState) :
    s.enterStage k q =
      if x.state.value = q.value ∧ x.activeInput = (x.entering q).activeInput then s.withStage k (x.entering q)
      else
        ((s.withStage k (x.entering q)).feedingFrom (x.entering q) q).post .stageState
          (be 1 k ++ be 1 q.value ++ be 1 x.state.value ++ be 1 (inputValue (x.entering q).activeInput) ++
            be 1 (setValue (x.entering q).activeSet)) := by
  have hnew : ((s.withStage k (x.entering q)).feedingFrom (x.entering q) q).stage k = some (x.entering q) := by
    rw [stage, (KeepsFeeds.feedingFrom _ _ _).stages]
    exact stage_withStage h _
  have hpost := postStage_of_stage hnew x.state.value
  rw [feedingFrom_eq] at hpost
  rw [enterStage_of_stage h, feedingFrom_eq]
  simp only [Bool.and_eq_true, beq_iff_eq]
  exact if_congr Iff.rfl rfl hpost

/-- R121: what a stage that takes a state leaves as it is. -/
theorem State.KeepsFeeds.enterStage {s : State} {k : Nat} {x : Stage} (h : s.stage k = some x) (q : StageState) :
    (s.withStage k (x.entering q)).KeepsFeeds (s.enterStage k q) := by
  rw [enterStage_eq h]
  split
  · exact refl _
  · exact (feedingFrom _ _ _).trans (post _ _ _)

/-! ### The end of a changeover -/

/-- R128, step 1: the start order of a changeover in PREPARING is cancelled. -/
def State.startCancelled (s : State) (x : Stage) (c : Changeover) : State :=
  if c.step = .preparing then (match x.setOf c.target with | some i => s.cancelStartOrder i | none => s) else s

theorem State.KeepsFeeds.startCancelled (s : State) (x : Stage) (c : Changeover) :
    s.KeepsFeeds (s.startCancelled x c) := by
  unfold State.startCancelled
  split
  · split
    · exact ⟨rfl, rfl, rfl, rfl⟩
    · exact refl s
  · exact refl s

/-- R128: CHANGEOVER ENDED. -/
def endedData (k : Nat) (x : Stage) (c : Changeover) (o : ChangeOutcome) : List Byte :=
  be 1 k ++ be 1 c.kind.value ++ be 1 o.value ++ be 1 c.step.value ++ be 1 (inputValue c.source) ++
    be 1 (inputValue (some c.target)) ++ be 1 (setValue (x.setOf c.target)) ++ be 1 (setValue (c.source.bind x.setOf)) ++
    c.started.bytes

/-- R128: the state that the end of a changeover leads to, before supply loss is to be judged. -/
def State.changeoverEnded (s : State) (k : Nat) (x : Stage) (c : Changeover) (o : ChangeOutcome) (after : StageState) :
    State :=
  ((c.serials.foldl State.recall (s.startCancelled x c)).enterStage k after).post .changeoverEnded (endedData k x c o)

theorem State.endChangeover_of_stage {s : State} {k : Nat} {x : Stage} (h : s.stage k = some x) (c : Changeover)
    (o : ChangeOutcome) (after : StageState) :
    s.endChangeover k c o after =
      match after with
      | .fed _ => (s.changeoverEnded k x c o after).tell (.judgeSupply k)
      | _ => s.changeoverEnded k x c o after := by
  have hcancelled : (if c.step == .preparing then (x.setOf c.target).elim s s.cancelStartOrder else s) =
      s.startCancelled x c := by
    rw [startCancelled]
    simp only [beq_iff_eq]
    cases x.setOf c.target <;> rfl
  simp only [endChangeover, h, hcancelled]
  cases after <;> rfl

/-- R128: the record that the end of a changeover leaves of its stage; the other stages, and what it keeps. -/
theorem State.changeoverEnded_frame {s : State} {k : Nat} {x : Stage} (h : s.stage k = some x) (c : Changeover)
    (o : ChangeOutcome) (after : StageState) :
    (s.withStage k (x.entering after)).KeepsFeeds (s.changeoverEnded k x c o after) := by
  let recalled := c.serials.foldl State.recall (s.startCancelled x c)
  have hrecalled : s.KeepsFeeds recalled := (KeepsFeeds.startCancelled s x c).trans (.foldl_recall _ _)
  have hx : recalled.stage k = some x := (congrArg (fun y : Table 8 Stage => y.get k) hrecalled.stages).trans h
  have hentered := (KeepsFeeds.enterStage hx after).trans (.post _ .changeoverEnded (endedData k x c o))
  have hset : (s.withStage k (x.entering after)).KeepsFeeds (recalled.withStage k (x.entering after)) :=
    ⟨congrArg (fun y : Table 8 Stage => y.set k (x.entering after)) hrecalled.stages, hrecalled.deliveries,
      hrecalled.billing, hrecalled.tally⟩
  exact hset.trans hentered

/-- Settles O37: the codes; the sets that feed; the end of a changeover by the operations it is made of; the tables. -/
theorem changeoversEnd : Obligations.ChangeoversEnd := by
  refine ⟨⟨fun q => by cases q <;> rfl, fun q => by cases q <;> rfl, fun q => by cases q <;> rfl,
    fun o => by cases o <;> rfl⟩, fun s i => ⟨State.becomeFeeding_of_none, fun r h => ⟨State.becomeFeeding_off h,
      fun hr => ?_, fun hr => ?_, fun hr => ?_⟩⟩, fun s i => ?_, fun s k x c o after hx hc hafter => ?_, ?_, ?_,
      fun target a b => ?_, fun p restore offered => ?_⟩
  · simp only [State.becomeFeeding_of_set h, hr]
  · rw [State.becomeFeeding_of_set h, hr] <;> rfl
  · rw [State.becomeFeeding_of_set h]
    rcases hr with hr | hr | ⟨c, hr⟩ | ⟨q, hr⟩ <;> rw [hr]
  · rw [State.feeding_iff]
    refine exists_congr fun k => exists_congr fun x => ?_
    rw [x.activeSet_iff, ← exists_and_left]
    exact exists_congr fun j => by cases j <;> exact Iff.rfl
  · have hframe := State.changeoverEnded_frame hx c o after
    have hfinal : (s.withStage k (x.entering after)).KeepsFeeds (s.endChangeover k c o after) := by
      rw [State.endChangeover_of_stage hx]
      split
      · exact ⟨hframe.stages, hframe.deliveries, hframe.billing, hframe.tally⟩
      · exact hframe
    have hstage (j : Nat) : (s.endChangeover k c o after).stage j = (s.withStage k (x.entering after)).stage j :=
      congrArg (fun y : Table 8 Stage => y.get j) hfinal.stages
    refine ⟨x.entering after, (hstage k).trans (State.stage_withStage hx _), rfl, rfl, rfl, rfl, rfl, rfl, rfl,
      fun j hj => (hstage j).trans ?_, hfinal.deliveries, hfinal.billing, hfinal.tally, ?_⟩
    · rw [State.stage, State.withStage, Table.get_set, if_neg (Ne.symm hj)]
      rfl
    · rintro ⟨i, rfl⟩
      rw [State.endChangeover_of_stage hx]
      exact List.mem_append_right _ (List.mem_singleton_self _)
  · intro s k x c o after hx set input cancelled recalled ended
    have htarget : x.setOf c.target = set (some c.target) := by
      simp only [set]
      cases c.target <;> rfl
    have hsource : c.source.bind x.setOf = set c.source := by
      simp only [set]
      rcases c.source with _ | _ | _ <;> rfl
    have hinput (i : Option Input) : be 1 (inputValue i) = input i := by
      simp only [input]
      rcases i with _ | _ | _ <;> rfl
    have hcancelled : s.startCancelled x c = cancelled := by
      rw [State.startCancelled, htarget] <;> rfl
    have hserials : c.serials = (match c.board with | .offered n => [n] | _ => []) ++
        (c.stations.filter fun l => l.state == .awaitingReading).map fun l => l.serial := by
      unfold Changeover.serials
      cases c.board <;> rfl
    have hdata : endedData k x c o =
        be 1 k ++ be 1 c.kind.value ++ be 1 o.value ++ be 1 c.step.value ++ input c.source ++ input (some c.target) ++
          be 1 ((set (some c.target)).getD 255) ++ be 1 ((set c.source).getD 255) ++ be 1 c.started.day ++
          be 3 c.started.second := by
      rw [endedData, hinput, hinput, htarget, hsource, Stamp.bytes, ← List.append_assoc] <;> rfl
    have hended : s.changeoverEnded k x c o after = ended := by
      rw [State.changeoverEnded, hdata, hcancelled, hserials] <;> rfl
    rw [State.endChangeover_of_stage hx, hended] <;> cases after <;> rfl
  · intro s k x q hx y u fed
    have hy : x.entering q = y := by cases q <;> rfl
    have hu : s.withStage k y = u := rfl
    have hfed : u.feedingFrom y q = fed := by
      simp only [fed]
      cases q with
      | fed i =>
        simp only [State.feedingFrom] <;> cases y.activeSet <;> rfl
      | _ => rfl
    rw [State.enterStage_eq hx, hy, hu, hfed]
    have hinput : inputValue y.activeInput = match y.activeInput with | none => 0 | some .a => 1 | some .b => 2 := by
      rcases y.activeInput with _ | _ | _ <;> rfl
    rw [hinput] <;> rfl
  · cases target <;> cases a <;> cases b <;> rfl
  · refine ⟨by cases p <;> rfl, by cases p <;> rfl, by cases p <;> rfl, by cases p <;> rfl, by cases p <;> rfl,
      by cases p <;> rfl, by cases p <;> rfl, by cases p <;> rfl, by cases p <;> rfl⟩

end Sys2Proof.Machine
end

section
/-! PROOFS. The steps of a changeover (07). -/

namespace Sys2Proof.Machine

/-! ### The context of a changeover -/

/-- A stage is CHANGING with a context. -/
def State.withContext (s : State) (k : Nat) (x : Stage) (c : Changeover) : State :=
  s.withStage k { x with state := .changing c }

/-- Stage `k`, with record `x`, is CHANGING with context `c`. -/
structure State.Changing (s : State) (k : Nat) (x : Stage) (c : Changeover) : Prop where
  stage : s.stage k = some x
  state : x.state = .changing c

theorem State.Changing.self {s : State} {k : Nat} {x : Stage} {c : Changeover} (h : s.Changing k x c) :
    s.withContext k x c = s := by
  have hx : ({ x with state := .changing c } : Stage) = x := by rw [← h.state]
  rw [withContext, hx, withStage, Table.set_of_get _ h.stage]

theorem State.Changing.context {s : State} {k : Nat} {x : Stage} {c : Changeover} (h : s.Changing k x c) :
    s.context k = some c := context_of_changing h.stage h.state

theorem State.Changing.withContext {s : State} {k : Nat} {x : Stage} {c : Changeover} (h : s.Changing k x c)
    (d : Changeover) : (s.withContext k x d).Changing k { x with state := .changing d } d :=
  ⟨stage_withStage h.stage _, rfl⟩

@[simp] theorem State.changeContext_withContext (s : State) (k : Nat) (x : Stage) (c : Changeover)
    (f : Changeover → Changeover) : (s.withContext k x c).changeContext k f = s.withContext k x (f c) := by
  simp [changeContext, withContext]

theorem State.changeContext_eq {s : State} {k : Nat} {x : Stage} {c : Changeover} (h : s.Changing k x c)
    (f : Changeover → Changeover) : s.changeContext k f = s.withContext k x (f c) := by
  rw [← changeContext_withContext, h.self]

@[simp] theorem State.takeStep_withContext (s : State) (k : Nat) (x : Stage) (c : Changeover) (q : ChangeStep) :
    (s.withContext k x c).takeStep k q = s.withContext k x { c with step := q, timer := none, board := .none } :=
  changeContext_withContext ..

@[simp] theorem State.startStageTimer_withContext (s : State) (k : Nat) (x : Stage) (c : Changeover) (t : StageTimerKind)
    (n : Nat) : (s.withContext k x c).startStageTimer k t n = s.withContext k x { c with timer := some ⟨t, n⟩ } :=
  changeContext_withContext ..

@[simp] theorem State.offerBoard_withContext (s : State) (k : Nat) (x : Stage) (c : Changeover) (o : Order) :
    (s.withContext k x c).offerBoard k o =
      (s.withContext k x { c with board := .offered s.line.nextSerial, timer := none }).offer o k .sequence := by
  rw [offerBoard, changeContext_withContext]
  rfl

theorem State.Changing.incoming {s : State} {k : Nat} {x : Stage} {c : Changeover} (h : s.Changing k x c) :
    (s.stage k).bind Stage.incoming = x.setOf c.target := by
  rw [h.stage, Option.bind_some, Stage.incoming, Stage.context, h.state]
  rfl

theorem State.Changing.outgoing {s : State} {k : Nat} {x : Stage} {c : Changeover} (h : s.Changing k x c) :
    (s.stage k).bind Stage.outgoing = c.source.bind x.setOf := by
  rw [h.stage, Option.bind_some, Stage.outgoing, Stage.context, h.state]
  rfl

/-! ### The outgoing set and the interlock -/

theorem State.outgoingOnline_iff {s : State} {k : Nat} {x : Stage} (h : s.stage k = some x) (c : Changeover) :
    s.outgoingOnline k c = true ↔ ∃ i, c.source.bind x.setOf = some i ∧ s.setStateOf i = some .online := by
  rw [outgoingOnline, h, Option.bind_some]
  cases c.source.bind x.setOf <;> simp

/-- R134: no input is closed, and no close is outstanding. -/
def State.InterlockFree (s : State) (k : Nat) (x : Stage) : Prop :=
  (∃ r, x.report = some r ∧ r.closedA = false ∧ r.closedB = false) ∧
    ∀ y ∈ s.line.queue ++ s.line.waiting, y.object = k → y.order ≠ .closeInput .a ∧ y.order ≠ .closeInput .b

theorem State.closeOutstanding_eq_false {s : State} {k : Nat} :
    s.closeOutstanding k = false ↔
      ∀ y ∈ s.line.queue ++ s.line.waiting, y.object = k → y.order ≠ .closeInput .a ∧ y.order ≠ .closeInput .b := by
  have hnone : s.closeOutstanding k = false ↔ ∀ y ∈ s.line.queue ++ s.line.waiting,
      ((y.order == .closeInput .a || y.order == .closeInput .b) && y.object == k) = false := by
    rw [closeOutstanding, Line.outstanding, ← List.any_append, List.any_eq_false]
    simp only [Bool.not_eq_true]
  rw [hnone]
  refine forall_congr' fun y => forall_congr' fun _ => ?_
  rw [Bool.and_eq_false_iff, Bool.or_eq_false_iff, beq_eq_false_iff_ne, beq_eq_false_iff_ne, beq_eq_false_iff_ne]
  exact ⟨fun h hk => h.resolve_right fun hne => hne hk, fun h => (em (y.object = k)).elim (fun hk => .inl (h hk)) .inr⟩

theorem State.interlockFree_iff {s : State} {k : Nat} {x : Stage} (h : s.stage k = some x) :
    s.interlockFree k = true ↔ s.InterlockFree k x := by
  rw [interlockFree, h, Option.bind_some, Bool.and_eq_true, Bool.not_eq_true', closeOutstanding_eq_false, InterlockFree]
  refine and_congr_left fun _ => ?_
  cases x.report <;> simp

/-! ### Closing -/

theorem Changeover.closes_eq_some {c : Changeover} {i : Input} :
    c.closes = some i ↔ (c.step = .closing ∧ i = c.target) ∨ (c.step = .reverting ∧ c.source = some i) := by
  rw [closes]
  cases h : c.step <;> simp [eq_comm]

theorem State.tryClose_of_free {s : State} {k : Nat} {x : Stage} {c : Changeover} {i : Input} (h : s.Changing k x c)
    (hcloses : c.closes = some i) (hboard : c.board = .none) (hfree : s.InterlockFree k x) :
    s.tryClose k =
      (s.withContext k x { c with board := .offered s.line.nextSerial, timer := none }).offer (.closeInput i) k
        .sequence := by
  have hready : (c.board == .none && s.interlockFree k) = true := by
    rw [hboard, (interlockFree_iff h.stage).2 hfree]
    rfl
  simp only [tryClose, h.context, hcloses, hready, if_true]
  rw [← offerBoard_withContext, h.self]

theorem State.tryClose_stays {s : State} {k : Nat} {x : Stage} {c : Changeover} (h : s.Changing k x c)
    (hstays : (c.step ≠ .closing ∧ c.step ≠ .reverting) ∨ c.board ≠ .none ∨ ¬s.InterlockFree k x) : s.tryClose k = s := by
  simp only [tryClose, h.context]
  cases hcloses : c.closes with
  | none => rfl
  | some i =>
    have hnot : ¬(c.board == .none && s.interlockFree k) = true := by
      rw [Bool.and_eq_true, beq_iff_eq, interlockFree_iff h.stage]
      rintro ⟨hboard, hfree⟩
      rcases hstays with ⟨hclosing, hreverting⟩ | hb | hf
      · rcases Changeover.closes_eq_some.1 hcloses with ⟨hq, -⟩ | ⟨hq, -⟩
        · exact hclosing hq
        · exact hreverting hq
      · exact hb hboard
      · exact hf hfree
    exact if_neg hnot

theorem State.enterClose_eq {s : State} {k : Nat} {x : Stage} {c : Changeover} {q : ChangeStep} {i : Input}
    (h : s.Changing k x c) (hq : (q = .closing ∧ i = c.target) ∨ (q = .reverting ∧ c.source = some i)) :
    (s.InterlockFree k x → s.enterClose k q =
        (s.withContext k x { c with step := q, board := .offered s.line.nextSerial, timer := none }).offer (.closeInput i) k
          .sequence) ∧
      (¬s.InterlockFree k x → s.enterClose k q =
        s.withContext k x { c with step := q, board := .none, timer := some ⟨.confirm, 20⟩ }) := by
  have htake : s.takeStep k q = s.withContext k x { c with step := q, timer := none, board := .none } := by
    rw [← takeStep_withContext, h.self]
  have hnew := h.withContext { c with step := q, timer := none, board := .none }
  have hfree : (s.withContext k x { c with step := q, timer := none, board := .none }).interlockFree k = true ↔
      s.InterlockFree k x := (interlockFree_iff hnew.stage).trans Iff.rfl
  simp only [enterClose, htake]
  refine ⟨fun hf => ?_, fun hf => ?_⟩
  · rw [if_pos (hfree.2 hf), tryClose_of_free hnew (Changeover.closes_eq_some.2 hq) rfl hf]
    simp [withContext, withStage]
  · rw [if_neg (mt hfree.1 hf), startStageTimer_withContext]
    rfl

/-- R134: a close that fails. -/
theorem State.closeFails_eq {s : State} {k : Nat} {x : Stage} (h : s.stage k = some x) (c : Changeover) :
    s.closeFails k c =
      if c.kind ≠ .restore ∧ ∃ i, c.source.bind x.setOf = some i ∧ s.setStateOf i = some .online then
        s.enterClose k .reverting
      else s.endChangeover k c .closeFailed .dark := by
  rw [closeFails]
  refine if_congr ?_ rfl rfl
  rw [Bool.and_eq_true, bne_iff_ne, outgoingOnline_iff h]

/-! ### Timers -/

theorem Changeover.expired_iff (c : Changeover) (t : StageTimerKind) : c.expired t = true ↔ c.timer = some ⟨t, 0⟩ :=
  beq_iff_eq

theorem State.prepareExpiry_eq {s : State} {k : Nat} {x : Stage} {c : Changeover} (h : s.Changing k x c) :
    prepareExpiry s k =
      if c.step = .preparing ∧ c.timer = some ⟨.prepare, 0⟩ then s.endChangeover k c .notReady c.fallback else s := by
  simp only [prepareExpiry, h.context, Bool.and_eq_true, beq_iff_eq, Changeover.expired_iff]

theorem State.confirmExpiry_eq {s : State} {k : Nat} {x : Stage} {c : Changeover} (h : s.Changing k x c) :
    confirmExpiry s k = if c.timer = some ⟨.confirm, 0⟩ then s.confirmExpired k c else s := by
  simp only [confirmExpiry, h.context, Changeover.expired_iff]

theorem State.deadTimeExpiry_eq {s : State} {k : Nat} {x : Stage} {c : Changeover} (h : s.Changing k x c) :
    deadTimeExpiry s k = if c.step = .dead ∧ c.timer = some ⟨.dead, 0⟩ then s.enterClose k .closing else s := by
  simp only [deadTimeExpiry, h.context, Bool.and_eq_true, beq_iff_eq, Changeover.expired_iff]

theorem State.openFails_eq {s : State} {k : Nat} {x : Stage} (h : s.stage k = some x) (c : Changeover) (committed : Bool) :
    s.openFails k c committed =
      s.endChangeover k c .boardFault (if x.lost = true ∧ committed = true then .unknown else c.fallback) := by
  simp only [openFails, h, Option.elim_some, Bool.and_eq_true]

theorem exec_prepareExpiry (k : Nat) (s : State) :
    exec (.prepareExpiry k) s = .next (prepareExpiry s k).finish.transmit := rfl

theorem exec_confirmExpiry (k : Nat) (s : State) :
    exec (.confirmExpiry k) s = .next (confirmExpiry s k).finish.transmit := rfl

theorem exec_deadTimeExpiry (k : Nat) (s : State) :
    exec (.deadTimeExpiry k) s = .next (deadTimeExpiry s k).finish.transmit := rfl

/-! ### Entering the steps -/

theorem State.enterPreparing_eq {s : State} {k : Nat} {x : Stage} {c : Changeover} (h : s.Changing k x c) :
    let prepared : Changeover := { c with timer := some ⟨.prepare, 1800⟩ }
    let u := s.withContext k x prepared
    s.enterPreparing k =
      match x.setOf c.target with
      | some i =>
        match s.setStateOf i with
        | some .stopped => u.startOrder i
        | some .cooling => u.startOrder i
        | some .online => u.incomingOnline k prepared i
        | _ => u
      | none => u := by
  intro prepared u
  have hstart : s.startStageTimer k .prepare Config.prepareTenths = u := by
    rw [← h.self, startStageTimer_withContext] <;> rfl
  have hu : u.Changing k { x with state := .changing prepared } prepared := h.withContext prepared
  have hincoming : (u.stage k).bind Stage.incoming = x.setOf c.target := by
    rw [hu.incoming]
    exact match c.target with | .a => rfl | .b => rfl
  have hsets (i : Nat) : u.setStateOf i = s.setStateOf i := rfl
  simp only [enterPreparing, hstart, hincoming, hu.context]
  cases x.setOf c.target with
  | none => rfl
  | some i =>
    simp only [hsets]
    rcases s.setStateOf i with _ | q
    · rfl
    · cases q <;> rfl

theorem State.enterBoundary_eq {s : State} {k : Nat} {x : Stage} {c : Changeover} (h : s.Changing k x c) :
    s.enterBoundary k =
      ((s.withContext k x { c with
        step := .boundary, timer := none, board := .none, stations := [],
        rate := some (match c.source.bind x.setOf with | some i => s.rateInUse i | none => 0) }).listStations k
          (s.line.metersOf k)).tell (.boundaryCheck k) := by
  have htake : s.takeStep k .boundary = s.withContext k x { c with step := .boundary, timer := none, board := .none } := by
    rw [← takeStep_withContext, h.self]
  simp only [enterBoundary, h.outgoing, htake, changeContext_withContext]
  cases c.source.bind x.setOf <;> rfl

theorem State.enterOpening_eq {s : State} {k : Nat} {x : Stage} {c : Changeover} {i : Input} (h : s.Changing k x c)
    (hi : c.source = some i) :
    s.enterOpening k =
      (s.withContext k x { c with step := .opening, timer := none, board := .offered s.line.nextSerial }).offer (.openInput i) k
        .sequence := by
  have htake : s.takeStep k .opening = s.withContext k x { c with step := .opening, timer := none, board := .none } := by
    rw [← takeStep_withContext, h.self]
  have hsource : ((s.withContext k x { c with step := .opening, timer := none, board := .none }).context k).bind
      (fun c => c.source) = some i := by
    rw [(h.withContext _).context]
    exact hi
  simp only [enterOpening, htake, hsource, offerBoard_withContext]

/-- R133: DEAD shows NONE. -/
theorem State.enterDead_eq {s : State} {k : Nat} {x : Stage} {c : Changeover} (h : s.Changing k x c) :
    let dead : Changeover := { c with step := .dead, timer := none, board := .none }
    let u := (s.withContext k x dead).post .stageState (be 1 k ++ be 1 3 ++ be 1 3 ++ be 1 0 ++ be 1 255)
    s.enterDead k =
      if (x.setOf c.target).elim false s.failedSet then u.deadFailed k dead
      else u.startStageTimer k .dead (10 * x.deadTime) := by
  intro dead u
  have htake : s.takeStep k .dead = s.withContext k x dead := by rw [← takeStep_withContext, h.self]
  have hnew : (s.withContext k x dead).Changing k { x with state := .changing dead } dead := h.withContext dead
  have hpost : (s.withContext k x dead).postStage k 3 = u := postStage_of_stage hnew.stage 3
  have hu : u.Changing k { x with state := .changing dead } dead := by
    refine ⟨?_, rfl⟩
    rw [stage, post_stages]
    exact hnew.stage
  have hleft : (s.stage k).elim 0 (fun x => x.state.value) = 3 := by
    rw [h.stage, Option.elim_some, h.state]
    rfl
  have hfailed : ((({ x with state := .changing dead } : Stage).setOf dead.target).elim false u.failedSet) =
      (x.setOf c.target).elim false s.failedSet := by
    have hsets (i : Nat) : u.failedSet i = s.failedSet i := by
      simp only [failedSet, setStateOf, State.set, u, post_sets]
      rfl
    have hset : ({ x with state := .changing dead } : Stage).setOf dead.target = x.setOf c.target :=
      match c.target with | .a => rfl | .b => rfl
    rw [hset]
    cases x.setOf c.target with
    | none => rfl
    | some i => exact hsets i
  simp only [enterDead, hleft, htake, hpost, hu.stage, hu.context, hfailed]

end Sys2Proof.Machine
end

section
/-! PROOFS. What a changeover makes of its sets, its board commands and its meter stations (07). -/

namespace Sys2Proof.Machine

/-! ### The incoming set -/

theorem State.deadFailed_eq {s : State} {k : Nat} {x : Stage} (h : s.stage k = some x) (c : Changeover) :
    s.deadFailed k c =
      if ∃ i, c.source.bind x.setOf = some i ∧ s.setStateOf i = some .online then s.enterClose k .reverting
      else s.endChangeover k c .bothLost .dark := by
  rw [deadFailed]
  exact if_congr (outgoingOnline_iff h c) rfl rfl

theorem State.stage_recall (s : State) (n k : Nat) : (s.recall n).stage k = s.stage k := by
  obtain ⟨l, m, h, -, -⟩ := s.recall_frame n
  rw [h]
  rfl

theorem State.setStateOf_recall (s : State) (n i : Nat) : (s.recall n).setStateOf i = s.setStateOf i := by
  obtain ⟨l, m, h, -, -⟩ := s.recall_frame n
  rw [h]
  rfl

/-- R130 to R134: the incoming set has failed, step by step. -/
theorem State.incomingFailed_eq {s : State} {k : Nat} {x : Stage} (h : s.stage k = some x) (c : Changeover) :
    let outgoingOnline := ∃ i, c.source.bind x.setOf = some i ∧ s.setStateOf i = some .online
    let uncommitted := ∃ n, c.board = .offered n ∧ s.line.uncommitted n = true
    (c.step = .preparing ∨ c.step = .boundary ∨ (c.step = .opening ∧ uncommitted) →
        s.incomingFailed k c = s.endChangeover k c .incomingFault c.fallback) ∧
      (c.step = .dead → outgoingOnline → s.incomingFailed k c = s.enterClose k .reverting) ∧
      (c.step = .dead → ¬outgoingOnline → s.incomingFailed k c = s.endChangeover k c .bothLost .dark) ∧
      (∀ n, c.step = .closing → c.board = .offered n → s.line.uncommitted n = true →
        s.incomingFailed k c =
          if c.kind ≠ .restore ∧ outgoingOnline then (s.recall n).enterClose k .reverting
          else (s.recall n).endChangeover k c .closeFailed .dark) ∧
      ((c.step = .opening ∨ c.step = .closing) ∧ ¬uncommitted ∨ c.step = .reverting → s.incomingFailed k c = s) := by
  intro outgoingOnline uncommitted
  have huncommitted : s.boardUncommitted c = true ↔ uncommitted := s.boardUncommitted_iff c
  refine ⟨fun hstep => ?_, fun hstep hon => ?_, fun hstep hoff => ?_, fun n hstep hboard hn => ?_, fun hstep => ?_⟩
  · rcases hstep with hq | hq | ⟨hq, hu⟩
    · simp only [incomingFailed, hq]
    · simp only [incomingFailed, hq]
    · simp only [incomingFailed, hq, huncommitted.2 hu, if_true]
  · simp only [incomingFailed, hstep, deadFailed_eq h]
    exact if_pos hon
  · simp only [incomingFailed, hstep, deadFailed_eq h]
    exact if_neg hoff
  · have hrecalled : (s.recall n).stage k = some x := (s.stage_recall n k).trans h
    have hu : s.boardUncommitted c = true := huncommitted.2 ⟨n, hboard, hn⟩
    simp only [incomingFailed, hstep, hu, if_true, withdrawClose, hboard, closeFails_eq hrecalled, setStateOf_recall]
    rfl
  · rcases hstep with ⟨hq | hq, hu⟩ | hq
    · simp only [incomingFailed, hq]
      exact if_neg (mt huncommitted.1 hu)
    · simp only [incomingFailed, hq]
      exact if_neg (mt huncommitted.1 hu)
    · simp only [incomingFailed, hq]

theorem State.incomingOnline_eq (s : State) (k : Nat) (c : Changeover) (i : Nat) :
    s.incomingOnline k c i =
      if s.headroom i k then
        if c.kind = .restore then s.enterClose k .closing else s.enterBoundary k
      else s.endChangeover k c .noHeadroom c.fallback := by
  simp only [incomingOnline, beq_iff_eq]

theorem State.incomingChanged_eq (s : State) (k : Nat) (c : Changeover) (i : Nat) :
    s.incomingChanged k c i =
      if s.setStateOf i = some .faulted ∨ s.setStateOf i = some .lost then s.incomingFailed k c
      else if c.step = .preparing ∧ s.setStateOf i = some .online then s.incomingOnline k c i
      else s := by
  simp only [incomingChanged, failedSet_iff, Bool.and_eq_true, beq_iff_eq]

theorem State.boundaryCheck_eq {s : State} {k : Nat} {x : Stage} {c : Changeover} (h : s.Changing k x c) :
    s.boundaryCheck k =
      if c.step = .boundary ∧ ∀ l ∈ c.stations, l.state = .ended then s.enterOpening k else s := by
  simp only [boundaryCheck, h.context, Bool.and_eq_true, beq_iff_eq, List.all_eq_true]

theorem State.coolingReturns_of_set {s : State} {i : Nat} {r : SetRecord} (h : s.set i = some r) :
    s.coolingReturns i = true ↔ r.timer ≠ none ∨ s.awaitsUncommitted i = true := by
  rw [s.coolingReturns_iff i, h]
  simp

/-! ### Board commands -/

theorem State.boardOutcome_of_changing {s : State} {cmd : Command} {x : Stage} {c : Changeover} (o : CommandOutcome)
    (h : s.Changing cmd.object x c) :
    s.boardOutcome cmd o =
      if c.board = .offered cmd.serial then s.boardEnded cmd.object c cmd o else s.tryClose cmd.object := by
  simp only [boardOutcome, h.context, beq_iff_eq]

theorem State.boardEnded_done {s : State} {k : Nat} {x : Stage} {c : Changeover} (h : s.Changing k x c) (cmd : Command) :
    s.boardEnded k c cmd .done = s.withContext k x { c with board := .ended, timer := some ⟨.confirm, 20⟩ } := by
  rw [boardEnded, changeContext_eq h, startStageTimer_withContext]
  rfl

theorem State.boardEnded_closing {c : Changeover} (h : c.step = .closing) (s : State) (k : Nat) (cmd : Command) :
    s.boardEnded k c cmd .noAnswer = s.closeFails k { c with board := .ended } := by
  obtain ⟨_, _, _, step, _, _, _, _, _, _⟩ := c
  cases h
  rfl

theorem State.closeFails_board {s : State} {k : Nat} {x : Stage} (h : s.stage k = some x) (c : Changeover) :
    s.closeFails k { c with board := .ended } =
      if c.kind ≠ .restore ∧ ∃ i, c.source.bind x.setOf = some i ∧ s.setStateOf i = some .online then
        s.enterClose k .reverting
      else s.endChangeover k { c with board := .ended } .closeFailed .dark := closeFails_eq h _

/-! ### Meter stations -/

/-- R131: the BOUNDARY of a stage lists a serial in a state. -/
def State.Lists (s : State) (serial : Nat) (q : ListedState) (k : Nat) : Prop :=
  ∃ x c, s.stage k = some x ∧ x.state = .changing c ∧ c.step = .boundary ∧
    ∃ l ∈ c.stations, l.serial = serial ∧ l.state = q

theorem Stage.lists_iff (x : Stage) (serial : Nat) (q : ListedState) :
    (x.context.elim false fun c => c.lists serial q) = true ↔
      ∃ c, x.state = .changing c ∧ c.step = .boundary ∧ ∃ l ∈ c.stations, l.serial = serial ∧ l.state = q := by
  unfold Stage.context
  cases hs : x.state with
  | changing c => simp [Changeover.lists]
  | _ => simp

theorem State.stageListing_eq_none {s : State} {serial : Nat} {q : ListedState} (h : ∀ k, ¬s.Lists serial q k) :
    s.stageListing serial q = none := by
  rw [stageListing, Table.find_eq_none]
  intro k x hx
  rw [Bool.eq_false_iff, Ne, x.lists_iff]
  rintro ⟨c, hc, hstep, hl⟩
  exact h k ⟨x, c, hx, hc, hstep, hl⟩

theorem State.stageListing_eq_some {s : State} {serial k : Nat} {q : ListedState} (h : s.Lists serial q k)
    (hfirst : ∀ j < k, ¬s.Lists serial q j) : s.stageListing serial q = some k := by
  rw [stageListing, Table.find_eq_some]
  obtain ⟨x, c, hx, hc, hstep, hl⟩ := h
  refine ⟨⟨x, hx, (x.lists_iff serial q).2 ⟨c, hc, hstep, hl⟩⟩, fun j hj y hy => ?_⟩
  rw [Bool.eq_false_iff, Ne, y.lists_iff]
  rintro ⟨d, hd, hdstep, hdl⟩
  exact hfirst j hj ⟨y, d, hy, hd, hdstep, hdl⟩

theorem Changeover.list_eq (c : Changeover) (serial : Nat) (q : ListedState) :
    c.list serial q =
      { c with stations := c.stations.map fun l => if l.serial = serial then { l with state := q } else l } := by
  simp only [list, beq_iff_eq]

theorem State.handOver_of_stream {s : State} {r : BoundaryRequest} {x : Stream}
    (h : s.billing.streams.get r.stage = some x) :
    s.handOver r =
      if x.requests = [] then
        ({ s with
          billing := { s.billing with
            streams := s.billing.streams.set r.stage { x with requests := x.requests ++ [r] } } } : State).tell
          (.bill (.stream r.stage))
      else
        { s with
          billing := { s.billing with
            streams := s.billing.streams.set r.stage { x with requests := x.requests ++ [r] } } } := by
  simp only [handOver, h, Option.elim_some, List.isEmpty_iff, Table.modify_of_get _ _ h]

end Sys2Proof.Machine
end

section
/-! PROOFS. The timers of a changeover and its interlock (07). -/

namespace Sys2Proof.Machine

/-- The set that an input names, where there is one. -/
theorem Stage.bind_setOf (x : Stage) (i : Option Input) :
    i.bind x.setOf = match i with | none => none | some .a => x.inputA | some .b => x.inputB := by
  rcases i with _ | _ | _ <;> rfl

theorem Stage.outgoing_online_iff (x : Stage) (source : Option Input) (p : Nat → Prop) :
    (∃ i set, source = some i ∧ (match i with | .a => x.inputA | .b => x.inputB) = some set ∧ p set) ↔
      ∃ set, source.bind x.setOf = some set ∧ p set := by
  rcases source with _ | _ | _ <;> simp [setOf]

theorem Stage.setOf_eq (x : Stage) (i : Input) : x.setOf i = match i with | .a => x.inputA | .b => x.inputB := by
  cases i <;> rfl

/-- Settles O38: the steps by the operations that enter them, each for a stage that is CHANGING. -/
theorem stageTimersAndInterlock : Obligations.StageTimersAndInterlock := by
  refine ⟨?_, ?_, fun s i => ?_, fun s i => ⟨fun h => ?_, fun r hr hq => ⟨fun hback => ?_, fun ht ha => ?_⟩,
    fun h1 h2 => ?_⟩, ?_, ?_, ?_, ?_, ?_⟩
  · intro s k x c hx hc back outgoingOnline
    have h : s.Changing k x c := ⟨hx, hc⟩
    have hback : c.fallback = back := c.fallback_eq
    have honline : (∃ i, c.source.bind x.setOf = some i ∧ s.setStateOf i = some .online) ↔ outgoingOnline :=
      (x.outgoing_online_iff c.source _).symm
    rw [exec_prepareExpiry, exec_confirmExpiry, exec_deadTimeExpiry, State.prepareExpiry_eq h, State.confirmExpiry_eq h,
      State.deadTimeExpiry_eq h, hback]
    refine ⟨fun ht hq => ?_, fun ht hq => ?_, fun ht hq hb => ?_, fun ht hq hb => ⟨fun hon => ?_, fun hoff => ?_⟩,
      fun ht hq => ?_, fun ht hq => ?_, fun ht => ⟨?_, ?_, ?_⟩⟩
    · rw [if_pos ⟨hq, ht⟩]
    · rw [if_pos ht, State.confirmExpired, hq]
      simp only [State.openFails_eq hx, and_true, hback]
    · rw [if_pos ht, State.confirmExpired, hq, hb]
      rfl
    · have hboard : (c.board == .none) = false := beq_eq_false_iff_ne.2 hb
      have hfails : s.closeFails k c = s.enterClose k .reverting :=
        (State.closeFails_eq hx c).trans (if_pos ⟨hon.1, honline.2 hon.2⟩)
      rw [if_pos ht, State.confirmExpired, hq, hboard]
      simp only [hfails, Bool.false_eq_true, if_false]
    · have hboard : (c.board == .none) = false := beq_eq_false_iff_ne.2 hb
      have hfails : s.closeFails k c = s.endChangeover k c .closeFailed .dark :=
        (State.closeFails_eq hx c).trans (if_neg fun ⟨hk, hon⟩ => hoff.elim hk fun hno => hno (honline.1 hon))
      rw [if_pos ht, State.confirmExpired, hq, hboard]
      simp only [hfails, Bool.false_eq_true, if_false]
    · rw [if_pos ht, State.confirmExpired, hq]
    · rw [if_pos ⟨hq, ht⟩]
    · rw [if_neg fun hand => ht _ hand.2]
    · rw [if_neg (ht _)]
    · rw [if_neg fun hand => ht _ hand.2]
  · intro s k x c hx hc set back entered meters
    have h : s.Changing k x c := ⟨hx, hc⟩
    have hback : c.fallback = back := c.fallback_eq
    have hset (i : Option Input) : set i = i.bind x.setOf := (x.bind_setOf i).symm
    have htarget : set (some c.target) = x.setOf c.target := hset _
    have hentered (d : Changeover) : s.withContext k x d = entered d := rfl
    have hmeters : s.line.metersOf k = meters := by
      simp only [Line.metersOf, meters, Option.elim_false_eq_any]
    refine ⟨?_, fun i => ?_, ?_, rfl, fun m more => ?_, fun hq hall => ?_, fun hnot => ?_, fun i hi => ?_, ?_, ?_, fun i => ?_⟩
    · intro prepared u
      have hprepare := State.enterPreparing_eq h
      rw [htarget]
      refine ⟨fun hnone => ?_, fun i hi => ⟨fun hstopped => ?_, fun hon => ?_, fun h1 h2 h3 => ?_⟩⟩
      · rw [hnone] at hprepare
        exact hprepare
      · rw [hi] at hprepare
        rcases hstopped with hq | hq <;> simp only [hq] at hprepare <;> exact hprepare
      · rw [hi] at hprepare
        simp only [hon] at hprepare
        exact hprepare
      · rw [hi] at hprepare
        cases hq : s.setStateOf i with
        | none =>
          simp only [hq] at hprepare
          exact hprepare
        | some q =>
          simp only [hq] at hprepare
          cases q with
          | stopped => exact absurd hq h1
          | cooling => exact absurd hq h2
          | online => exact absurd hq h3
          | _ => exact hprepare
    · rw [State.incomingOnline_eq, hback]
      refine ⟨fun hno => ?_, fun hroom hk => ?_, fun hroom hk => ?_⟩
      · rw [hno, if_neg Bool.false_ne_true]
      · rw [hroom, if_pos rfl, if_pos hk]
      · rw [hroom, if_pos rfl, if_neg hk]
    · rw [State.enterBoundary_eq h, hmeters, ← hset c.source] <;> rfl
    · rw [State.listStations, State.changeContext_eq h] <;> rfl
    · rw [State.boundaryCheck_eq h, if_pos ⟨hq, hall⟩]
    · rw [State.boundaryCheck_eq h, if_neg]
      rintro ⟨hq, hall⟩
      rcases hnot with hne | ⟨l, hl, hne⟩
      · exact hne hq
      · exact hne (hall l hl)
    · exact State.enterOpening_eq h hi
    · intro dead u failed
      have hdead : s.enterDead k =
          if (x.setOf c.target).elim false s.failedSet then u.deadFailed k dead
          else u.startStageTimer k .dead (10 * x.deadTime) := State.enterDead_eq h
      have hfailed : (x.setOf c.target).elim false s.failedSet = true ↔ failed := by
        simp only [failed, htarget]
        cases x.setOf c.target with
        | none => simp
        | some i => simp [State.failedSet_iff]
      refine ⟨fun hf => ?_, fun hf => ?_⟩
      · rw [if_pos (hfailed.2 hf)] at hdead
        exact hdead
      · rw [if_neg (mt hfailed.1 hf)] at hdead
        have hstages : u.stages = s.stages.set k { x with state := .changing dead } := State.post_stages _ _ _
        have hu : u.Changing k { x with state := .changing dead } dead := by
          refine ⟨?_, rfl⟩
          rw [State.stage, hstages]
          exact Table.get_set_self _ _ hx
        refine hdead.trans ((State.changeContext_eq hu _).trans ?_)
        rw [State.withContext, State.withStage, hstages, Table.set_set]
    · intro outgoingOnline uncommitted
      have honline : (∃ i, c.source.bind x.setOf = some i ∧ s.setStateOf i = some .online) ↔ outgoingOnline := by
        rw [← hset c.source]
      have hfailed := State.incomingFailed_eq hx c
      obtain ⟨hbefore, hreverts, hlost, hcloses, hstays⟩ := hfailed
      exact ⟨fun hstep => (hbefore hstep).trans (by rw [hback]), fun hq hon => hreverts hq (honline.2 hon),
        fun hq hoff => hlost hq (mt honline.1 hoff),
        fun n hq hb hn => (hcloses n hq hb hn).trans (if_congr (and_congr_right fun _ => honline) rfl rfl), hstays⟩
    · rw [State.incomingChanged_eq]
      refine ⟨fun hfailed => if_pos hfailed, fun hon hq => ?_, fun h1 h2 h3 => ?_⟩
      · rw [if_neg (by rw [hon]; simp), if_pos ⟨hq, hon⟩]
      · rw [if_neg (fun hor => hor.elim h1 h2), if_neg fun ⟨hq, hon⟩ => h3.elim (fun hne => hne hon) fun hne => hne hq]
  · refine State.eachStage_congr (fun u k => ?_) s
    cases hx : u.stage k with
    | none => rfl
    | some x =>
      cases hs : x.state with
      | changing c => simp [Stage.context, hs, x.setOf_eq] <;> rfl
      | fed j => simp [Stage.context, Stage.fedSet, hs, x.setOf_eq] <;> rfl
      | _ => simp [Stage.context, Stage.fedSet, hs]
  · simp only [State.startOrder, h]
  · have hstate : s.setStateOf i = some .cooling := by rw [State.setStateOf_of_set hr, hq]; rfl
    simp only [State.startOrder, hstate, (State.coolingReturns_of_set hr).2 hback, if_true]
  · have hstate : s.setStateOf i = some .cooling := by rw [State.setStateOf_of_set hr, hq]; rfl
    have hnot : ¬s.coolingReturns i = true := by
      rw [State.coolingReturns_of_set hr]
      rintro (hne | ha')
      · exact hne ht
      · exact Bool.false_ne_true (ha.symm.trans ha')
    simp only [State.startOrder, hstate, hnot]
    exact State.changeSet_eq hr _
  · rw [State.startOrder]
    cases hq : s.setStateOf i with
    | none => rfl
    | some q =>
      cases q with
      | stopped => exact absurd hq h1
      | cooling => exact absurd hq h2
      | _ => rfl
  · intro s k x c q i hx hc hq free entered
    exact State.enterClose_eq ⟨hx, hc⟩ hq
  · intro s k x hx
    refine ⟨fun hc => ?_, fun c hc => ?_⟩
    · rw [State.tryClose, State.context_of_not_changing hx hc]
    · intro free
      exact ⟨fun i hi hb hf => State.tryClose_of_free ⟨hx, hc⟩ (Changeover.closes_eq_some.2 hi) hb hf,
        fun hstays => State.tryClose_stays ⟨hx, hc⟩ hstays⟩
  · intro s cmd o x hx k
    refine ⟨fun hc => ?_, fun c hc => ?_⟩
    · rw [State.boardOutcome, State.context_of_not_changing hx hc]
    · intro back outgoingOnline
      have h : s.Changing k x c := ⟨hx, hc⟩
      have hback : c.fallback = back := c.fallback_eq
      have honline : (∃ i, c.source.bind x.setOf = some i ∧ s.setStateOf i = some .online) ↔ outgoingOnline :=
        (x.outgoing_online_iff c.source _).symm
      have houtcome := State.boardOutcome_of_changing o h
      refine ⟨fun hb => ?_, fun hb => ?_⟩
      · rw [houtcome, if_neg hb]
      · rw [if_pos hb] at houtcome
        rw [houtcome]
        refine ⟨fun ho => ?_, fun ho => by rw [ho]; rfl, fun ho => ?_⟩
        · rw [ho]
          exact State.boardEnded_done h cmd
        · rw [ho]
          refine ⟨fun hq => ?_, fun hq => ⟨fun hon => ?_, fun hoff => ?_⟩, fun hq => ?_, fun hq => ?_⟩
          · simp only [State.boardEnded, hq]
            rw [← hback]
            exact State.openFails_eq hx c cmd.committed
          · rw [State.boardEnded_closing hq]
            exact (State.closeFails_board hx c).trans (if_pos ⟨hon.1, honline.2 hon.2⟩)
          · have hnot : ¬(c.kind ≠ .restore ∧ ∃ i, c.source.bind x.setOf = some i ∧ s.setStateOf i = some .online) :=
              fun ⟨hk, hon⟩ => hoff.elim hk fun hno => hno (honline.1 hon)
            rw [State.boardEnded_closing hq]
            exact (State.closeFails_board hx c).trans (if_neg hnot)
          · simp only [State.boardEnded, hq] <;> rfl
          · rcases hq with hq | hq | hq <;> simp only [State.boardEnded, hq]
  · intro s serial q lists
    have hlists (k : Nat) : s.Lists serial q k ↔ lists k := Iff.rfl
    refine ⟨fun hno => ⟨fun hq cmd o hs => ?_, fun hq r hs => ?_⟩, fun k x c hk hfirst hx hc => ?_⟩
    · have hnone := State.stageListing_eq_none fun k => hno k
      rw [State.countersOutcome, hs, ← hq, hnone]
    · have hnone := State.stageListing_eq_none fun k => hno k
      rw [State.boundaryEnded, hs, ← hq, hnone]
    · intro listed outgoing
      have h : s.Changing k x c := ⟨hx, hc⟩
      have hsome : s.stageListing serial q = some k := State.stageListing_eq_some hk hfirst
      have hlisted (v : State) (hv : v.Changing k x c) (state : ListedState) :
          v.changeContext k (fun c => c.list serial state) = listed v state := by
        rw [State.changeContext_eq hv, Changeover.list_eq]
        rfl
      refine ⟨fun hq cmd o hs => ?_, fun hq r hs => ?_⟩
      · have houtgoing : (s.stage k).bind Stage.outgoing = outgoing := h.outgoing.trans (x.bind_setOf c.source)
        have hrate : ((s.context k).bind fun c => c.rate).getD 0 = c.rate.getD 0 := by
          rw [h.context, Option.bind_some]
        rw [State.countersOutcome, hs, ← hq, hsome]
        cases o with
        | done => simp only [hlisted s h, houtgoing, hrate]
        | noAnswer => exact congrArg (fun v : State => v.tell (.boundaryCheck k)) (hlisted (s.straddle cmd.object) ⟨hx, hc⟩ _)
        | removed => exact congrArg (fun v : State => v.tell (.boundaryCheck k)) (hlisted s h _)
      · rw [State.boundaryEnded, hs, ← hq, hsome]
        exact congrArg (fun v : State => v.tell (.boundaryCheck k)) (hlisted s h _)
  · intro s r x hx u
    rw [State.handOver_of_stream hx]
    exact ⟨fun hr => if_pos hr, fun hr => if_neg hr⟩

end Sys2Proof.Machine
end

section
/-! PROOFS. RESET PART and the soft reset (12). -/

namespace Sys2Proof.Machine

/-! ### RESET PART and its flush -/

theorem exec_resetPart_offered {s : State} {tag : Byte} (h : Offered s .office 0x02 tag []) :
    exec (.resetPart .office) s =
      .next (deliver .office (unlessRefused (s.judged .office) [(s.resetRefused, refuse .state 0)]
        ((s.judged .office).requeue (.softFlush 0), none))).transmit :=
  exec_of_empty (row := .resetPart) (owner := ownResetPart) rfl h rfl rfl

theorem Channel.isIdle_eq_false (x : Channel) : x.isIdle = false ↔ x.state ≠ .idle := by
  rw [isIdle]
  cases x.state <;> simp

theorem State.resetRefused_iff (s : State) :
    s.resetRefused = true ↔ (∃ x ∈ s.deliveries.channels.cells, x.state ≠ .idle) ∨
      (∃ k ∈ s.stages.cells, ∃ c, k.state = .changing c) ∨ s.period.close ≠ none := by
  simp only [resetRefused, Bool.or_eq_true, anyChanging_iff, Option.isSome_iff_ne_none, anyChannelBusy, List.any_eq_true,
    Bool.not_eq_true', Channel.isIdle_eq_false, or_assoc]

theorem exec_softResetFlushStep {s : State} {n : Nat} {rest : List WorkOp}
    (h : Performs s.tally.work (.softFlush n) rest) :
    let u := (({ s with tally := { s.tally with work := rest } } : State).writeBack n).1
    exec .softResetFlushStep s =
      .next (if n < 63 then u.requeue (.softFlush (n + 1))
        else if u.resetRefused then u.answer .office (refuse .state 0)
        else ({ u with loader := { u.loader with resetDue := true } } : State).answer .office (.done [])).transmit :=
  congrArg (fun u : State => (.next u.transmit : Result)) (State.performNext_of_performs h rfl _)

theorem State.writeRecord_frame (s : State) (a : Nat) (r : AccountRecord) :
    s.writeRecord a r = { s with tallyMem := (s.writeRecord a r).tallyMem } := by
  rw [writeRecord_tallyMem, writeRecord]
  by_cases h : s.bankAnswers a = true
  · rw [if_pos h, if_pos h]
  · rw [if_neg h, if_neg h]

theorem State.resetRefused_writeRecord (s : State) (a : Nat) (r : AccountRecord) :
    (s.writeRecord a r).resetRefused = s.resetRefused := by
  rw [writeRecord_frame]
  rfl

/-! ### The write-back of a soft reset -/

/-- The cache lines become others. -/
def State.withLines (s : State) (lines : Table 64 (Option CacheLine)) : State :=
  { s with tally := { s.tally with lines := lines } }

theorem State.writeRecord_withLines (s : State) (lines : Table 64 (Option CacheLine)) (a : Nat) (r : AccountRecord) :
    (s.withLines lines).writeRecord a r = (s.writeRecord a r).withLines lines := by
  have hanswers : (s.withLines lines).bankAnswers a = s.bankAnswers a := rfl
  have hwas : (s.withLines lines).tallyMem = s.tallyMem := rfl
  have hmem : ((s.withLines lines).writeRecord a r).tallyMem = (s.writeRecord a r).tallyMem := by
    rw [writeRecord_tallyMem, writeRecord_tallyMem, hanswers, hwas]
  rw [writeRecord_frame, hmem, s.writeRecord_frame a r]
  rfl

/-- R175: line `n` of `lines` is written back where it is dirty. -/
def State.writtenBack (lines : Table 64 (Option CacheLine)) (v : State) (n : Nat) : State :=
  match lines.get n with
  | some (some l) => if l.dirty then v.writeRecord l.account l.record else v
  | _ => v

theorem State.writtenBack_frame (lines : Table 64 (Option CacheLine)) (v : State) (n : Nat) :
    State.writtenBack lines v n = { v with tallyMem := (State.writtenBack lines v n).tallyMem } := by
  unfold writtenBack
  split
  · split
    · exact v.writeRecord_frame _ _
    · rfl
  · rfl

theorem State.foldl_writtenBack_frame (lines : Table 64 (Option CacheLine)) (ns : List Nat) : ∀ s : State,
    ns.foldl (State.writtenBack lines) s = { s with tallyMem := (ns.foldl (State.writtenBack lines) s).tallyMem } := by
  induction ns with
  | nil => exact fun s => rfl
  | cons n ns ih =>
    intro s
    rw [List.foldl_cons, ih, writtenBack_frame]

/-- R175: a byte that belongs to no dirty line keeps its value. -/
theorem State.read_foldl_writtenBack {lines : Table 64 (Option CacheLine)} {x : Nat}
    (h : ∀ n l, lines.get n = some (some l) → l.dirty = true → x < l.account * 54 ∨ l.account * 54 + 54 ≤ x)
    (ns : List Nat) : ∀ s : State, (ns.foldl (State.writtenBack lines) s).tallyMem.read x = s.tallyMem.read x := by
  induction ns with
  | nil => exact fun s => rfl
  | cons n ns ih =>
    intro s
    rw [List.foldl_cons, ih, writtenBack]
    split
    next l hl =>
      split
      next hd => exact s.read_writeRecord_outside _ _ x (h n l hl hd)
      next => rfl
    next => rfl

/-- R171, R175: a write-back leaves the other lines, and writes what the line held. -/
theorem State.writeBack_withLines {s : State} {lines was : Table 64 (Option CacheLine)} {n : Nat}
    (h : lines.get n = was.get n) :
    ∃ after : Table 64 (Option CacheLine), (∀ j, j ≠ n → after.get j = lines.get j) ∧
      ((s.withLines lines).writeBack n).1 = (State.writtenBack was s n).withLines after := by
  unfold writtenBack
  rw [← h]
  cases hl : lines.get n with
  | none => exact ⟨lines, fun _ _ => rfl, by rw [writeBack_clean (s := s.withLines lines) fun l hl' => by simp [withLines, hl] at hl']⟩
  | some o =>
    cases o with
    | none => exact ⟨lines, fun _ _ => rfl, by rw [writeBack_clean (s := s.withLines lines) fun l hl' => by simp [withLines, hl] at hl']⟩
    | some l =>
      obtain ⟨dirty, a, r⟩ := l
      cases dirty with
      | false =>
        refine ⟨lines, fun _ _ => rfl, ?_⟩
        rw [writeBack_clean (s := s.withLines lines) fun l hl' => by
          simp only [withLines, hl, Option.some.injEq] at hl'
          rw [← hl']]
        rfl
      | true =>
        refine ⟨lines.set n (some ⟨false, a, r⟩), fun j hj => ?_, ?_⟩
        · rw [Table.get_set, if_neg (Ne.symm hj)]
        · rw [writeBack_dirty (s := s.withLines lines) hl, writeRecord_withLines]
          rfl

/-- R175, step 2: the lines are visited in ascending order, each as it was. -/
theorem State.foldl_writeBack (s : State) (m : Nat) :
    ∃ lines : Table 64 (Option CacheLine), (∀ j, m ≤ j → lines.get j = s.tally.lines.get j) ∧
      (List.range m).foldl (fun s n => (s.writeBack n).1) s =
        ((List.range m).foldl (State.writtenBack s.tally.lines) s).withLines lines := by
  induction m with
  | zero => exact ⟨s.tally.lines, fun _ _ => rfl, rfl⟩
  | succ m ih =>
    obtain ⟨lines, hlines, heq⟩ := ih
    obtain ⟨after, hafter, hstep⟩ := writeBack_withLines (s := (List.range m).foldl (State.writtenBack s.tally.lines) s)
      (hlines m (Nat.le_refl m))
    refine ⟨after, fun j hj => (hafter j (by omega)).trans (hlines j (by omega)), ?_⟩
    rw [List.range_succ, List.foldl_append, List.foldl_append, heq]
    exact hstep

/-- R175: what the soft reset makes of the tally. -/
theorem State.tallySoftReset_eq (s : State) :
    s.tallySoftReset =
      { s with
        tallyMem := ((List.range 64).foldl (State.writtenBack s.tally.lines) s).tallyMem
        tally := { s.tally with lines := Table.replicate 64 none, work := [], fault := none } } := by
  obtain ⟨lines, -, heq⟩ := s.foldl_writeBack 64
  rw [tallySoftReset, State.forEach, heq, foldl_writtenBack_frame]
  rfl

/-! ### The soft reset -/

theorem exec_softReset (s : State) : exec .softReset s = .next (softReset s).finish.transmit := rfl

theorem State.softResetReady_iff (s : State) :
    s.softResetReady = true ↔ s.loader.resetDue = true ∧ s.office.inProgress = none ∧ s.yard.inProgress = none := by
  rw [softResetReady, Bool.and_eq_true, Bool.and_eq_true, Option.isNone_iff_eq_none, Option.isNone_iff_eq_none, and_assoc]

theorem Decision.value_eq (d : Decision) :
    d.value = match d with | .taken => 0 | .left => 1 | .bad => 2 | .absent => 3 := by cases d <;> rfl

theorem Loader.reportBytes_eq (l : Loader) :
    l.reportBytes =
      l.report.cells.flatMap fun d => be 1 (match d with | .taken => 0 | .left => 1 | .bad => 2 | .absent => 3) := by
  rw [reportBytes]
  exact congrArg (fun f => l.report.cells.flatMap f) (funext fun d => congrArg (be 1) d.value_eq)

theorem Line.listening_isSome_iff (l : Line) :
    l.listening.isSome = true ↔ ∃ t, l.current = some t ∧ t.phase = .listening := by
  rw [listening]
  cases l.current <;> simp

/-- Settles O50: the flush by its step; the soft reset by what it makes of each block. -/
theorem softResetKeepsWhatItMust : Obligations.SoftResetKeepsWhatItMust := by
  refine ⟨?_, State.resetRefused_iff, ?_, fun s hs => ?_, fun s hdue ho hy => ?_⟩
  · intro s tag h t
    have hexec := exec_resetPart_offered h
    refine ⟨fun hr => ?_, fun hr => ?_⟩
    · rw [hexec, unlessRefused_cons, hr]
      rfl
    · rw [hexec, unlessRefused_cons, hr]
      rfl
  · intro s n rest hn hperf t v hv
    have hwritten : (t.writeBack n).1 = v := by
      rcases hv with ⟨a, r, hl, rfl⟩ | ⟨hclean, rfl⟩
      · rw [State.writeBack_dirty (s := t) hl]
      · rw [State.writeBack_clean (s := t) hclean]
    have hrefused : v.resetRefused = s.resetRefused := by
      rcases hv with ⟨a, r, -, rfl⟩ | ⟨-, rfl⟩
      · exact t.resetRefused_writeRecord a r
      · rfl
    have hexec := exec_softResetFlushStep hperf
    simp only [t] at hwritten
    simp only [hwritten, hrefused] at hexec
    refine ⟨fun hlt => ?_, fun heq hr => ?_, fun heq hr => ?_⟩
    · rw [hexec, if_pos hlt]
    · rw [hexec, if_neg (by omega), if_pos hr]
      rfl
    · rw [hexec, if_neg (by omega), if_neg (Bool.eq_false_iff.1 hr)]
      rfl
  · have hnot : ¬s.softResetReady = true := by
      rw [s.softResetReady_iff]
      rintro ⟨hdue, ho, hy⟩
      rcases hs with h | h | h
      · exact Bool.false_ne_true (h.symm.trans hdue)
      · exact h ho
      · exact h hy
    rw [exec_softReset, softReset, if_neg hnot]
  · have hready := s.softResetReady_iff.2 ⟨hdue, ho, hy⟩
    refine ⟨s.blocksSoftReset, ?_, ?_⟩
    · rw [exec_softReset, softReset, if_pos hready, State.postStarted, Loader.reportBytes_eq]
      rw [State.blocksSoftReset, State.tallySoftReset_eq]
      rfl
    · rw [State.blocksSoftReset, State.tallySoftReset_eq]
      refine ⟨rfl, rfl, rfl, rfl, rfl, rfl, ?_, fun x hx => State.read_foldl_writtenBack hx _ s, fun p => by cases p <;> rfl,
        fun e st he => ?_, rfl, rfl, rfl, rfl, rfl, rfl, rfl, rfl, rfl, ?_, fun i r hr => ?_, fun c x hx => ?_, rfl, rfl, rfl,
        fun k x hx => ?_, rfl, rfl, rfl, rfl, rfl, rfl, rfl, rfl, fun k x hx => ?_, fun n hn => ?_, rfl, rfl, rfl, rfl, rfl,
        rfl, rfl, rfl, rfl, rfl, rfl, rfl⟩
      · rfl
      · simp [Line.softReset, he]
      · rw [← s.line.listening_isSome_iff, ← Bool.or_eq_true]
        rfl
      · simp only [State.set, Table.used, Table.get_map] at hr ⊢
        rw [Option.join_eq_some_iff] at hr
        rw [hr]
        rfl
      · simp only [State.channel, Table.get_map] at hx ⊢
        rw [hx]
        rfl
      · simp only [State.stage, Table.get_map] at hx ⊢
        rw [hx]
        rfl
      · simp only [BillingEngine.softReset, BillingEngine.reset, Table.get_replicate] at hx
        split at hx
        · cases hx
          rfl
        · exact absurd hx (by simp)
      · simp only [Table.get_replicate, if_pos hn]

end Sys2Proof.Machine
end

section
/-! PROOFS. WRITE PLAN (12). -/

namespace Sys2Proof.Machine

/-! ### The sections of the new image -/

/-- R203: whether a section's kind is one of 1 to 7 that none of `kept` has. -/
def firstOfKind (kept : List (List Byte)) (x : List Byte) : Bool :=
  decide (1 ≤ sectionKind x ∧ sectionKind x ≤ 7 ∧ ∀ y ∈ kept, sectionKind y ≠ sectionKind x)

theorem keepFirst_cons (kept : List (List Byte)) (x : List Byte) (rest : List (List Byte)) :
    keepFirst kept (x :: rest) = keepFirst (if firstOfKind kept x then kept ++ [x] else kept) rest := by
  have hfirst : (1 ≤ sectionKind x ∧ sectionKind x ≤ 7 ∧ !kept.any (fun y => sectionKind y == sectionKind x)) ↔
      firstOfKind kept x = true := by simp [firstOfKind]
  simp only [keepFirst, hfirst]
  split <;> rfl

theorem keepFirst_concat (kept xs : List (List Byte)) (x : List Byte) :
    keepFirst kept (xs ++ [x]) =
      if firstOfKind (keepFirst kept xs) x then keepFirst kept xs ++ [x] else keepFirst kept xs := by
  induction xs generalizing kept with
  | nil => exact keepFirst_cons kept x []
  | cons y xs ih => rw [List.cons_append, keepFirst_cons, keepFirst_cons, ih]

/-- A kind from 1 to 7 is among the sections kept when it is among those met. -/
theorem exists_kind_keepFirst (kept xs : List (List Byte)) {n : Nat} (hn : 1 ≤ n ∧ n ≤ 7) :
    (∃ y ∈ keepFirst kept xs, sectionKind y = n) ↔ ∃ y ∈ kept ++ xs, sectionKind y = n := by
  induction xs generalizing kept with
  | nil => rw [keepFirst, List.append_nil]
  | cons x xs ih =>
    rw [keepFirst_cons, ih]
    cases hx : firstOfKind kept x
    · have hcovered : sectionKind x = n → ∃ y ∈ kept, sectionKind y = n := by
        rintro rfl
        simpa [firstOfKind, hn] using hx
      simp only [Bool.false_eq_true, if_false, List.mem_append, List.mem_cons]
      constructor
      · rintro ⟨y, hy | hy, hk⟩
        exacts [⟨y, .inl hy, hk⟩, ⟨y, .inr (.inr hy), hk⟩]
      · rintro ⟨y, hy | rfl | hy, hk⟩
        · exact ⟨y, .inl hy, hk⟩
        · obtain ⟨z, hz, hzk⟩ := hcovered hk
          exact ⟨z, .inl hz, hzk⟩
        · exact ⟨y, .inr hy, hk⟩
    · rw [if_pos rfl, List.append_assoc, List.singleton_append]

theorem firstOfKind_keepFirst_nil (xs : List (List Byte)) (x : List Byte) :
    firstOfKind (keepFirst [] xs) x = firstOfKind xs x := by
  refine decide_eq_decide.2 (and_congr_right fun hlow => and_congr_right fun hhigh => ?_)
  simpa using not_congr (exists_kind_keepFirst [] xs ⟨hlow, hhigh⟩)

theorem putSection_of_new {x : List Byte} {xs : List (List Byte)} (h : ∀ y ∈ xs, sectionKind y ≠ sectionKind x) :
    putSection x xs = xs ++ [x] := by
  have hnone : ¬(xs.any fun y => sectionKind y == sectionKind x) = true := by simpa using h
  rw [putSection, if_neg hnone]

theorem map_putSection_of_ne {x : List Byte} {xs : List (List Byte)} (h : ∀ y ∈ xs, sectionKind y ≠ sectionKind x) :
    (xs.map fun y => if sectionKind y == sectionKind x then x else y) = xs := by
  refine (List.map_congr_left fun y hy => ?_).trans (List.map_id xs)
  rw [if_neg (by simpa using h y hy), id]

theorem putSection_of_held {x y : List Byte} {before after : List (List Byte)} (hy : sectionKind y = sectionKind x)
    (h : ∀ z ∈ before ++ after, sectionKind z ≠ sectionKind x) :
    putSection x (before ++ y :: after) = before ++ x :: after := by
  obtain ⟨hbefore, hafter⟩ := List.forall_mem_append.1 h
  have hheld : ((before ++ y :: after).any fun z => sectionKind z == sectionKind x) = true := by simp [hy]
  rw [putSection, if_pos hheld, List.map_append, List.map_cons, map_putSection_of_ne hbefore,
    map_putSection_of_ne hafter, if_pos (by simpa using hy)]

/-! ### The request as its owner judges it -/

/-- The fields of a WRITE PLAN payload, with their widths. -/
def pieceFields (kind accept total offset : Nat) (piece : List Byte) : List (Nat × Nat) :=
  [(1, kind), (1, accept), (2, total), (2, offset), (1, piece.length)] ++ piece.map fun b => (1, b.toNat)

theorem encodeFields_bytes (piece : List Byte) : encodeFields (piece.map fun b => (1, b.toNat)) = piece := by
  induction piece with
  | nil => rfl
  | cons b piece ih =>
    rw [List.map_cons, encodeFields, List.flatMap_cons, ← encodeFields, ih, be_one_toNat]
    rfl

theorem widths_bytes (piece : List Byte) :
    (piece.map fun b => (1, b.toNat)).map Prod.fst = repeatWidths [1] piece.length := by
  induction piece with
  | nil => rfl
  | cons b piece ih => rw [List.map_cons, List.map_cons, ih]; rfl

theorem bytes_of_values (piece : List Byte) :
    (((piece.map fun b => (1, b.toNat)).map Prod.snd).map fun n => BitVec.ofNat 8 n) = piece := by
  induction piece with
  | nil => rfl
  | cons b piece ih => rw [List.map_cons, List.map_cons, List.map_cons, ih, BitVec.ofNat_toNat, BitVec.setWidth_eq]

theorem be_one_eq (n : Nat) : be 1 n = [BitVec.ofNat 8 n] := by simp [be]

theorem parse_writePlan {kind accept total offset : Nat} {piece : List Byte} (hkind : kind < 256) (haccept : accept < 256)
    (htotal : total < 65536) (hoffset : offset < 65536) (hpiece : piece.length ≤ 112) :
    RequestRow.writePlan.layout.parse
        (be 1 kind ++ be 1 accept ++ be 2 total ++ be 2 offset ++ be 1 piece.length ++ piece) =
      .ok ((pieceFields kind accept total offset piece).map Prod.snd) := by
  have hcount : (BitVec.ofNat 8 piece.length).toNat = piece.length := by
    rw [BitVec.toNat_ofNat]; omega
  have hhead : (be 1 kind ++ be 1 accept ++ be 2 total ++ be 2 offset).length = [1, 1, 2, 2].sum := by
    simp [length_be]
  have hfields : ∀ x ∈ pieceFields kind accept total offset piece, x.2 < 256 ^ x.1 := by
    simp only [pieceFields, List.forall_mem_append, List.forall_mem_cons, List.forall_mem_map]
    exact ⟨⟨hkind, haccept, htotal, hoffset, by omega, by simp⟩, fun b _ => b.isLt⟩
  have hvalues := fieldValues_encodeFields hfields
  have hencode : encodeFields (pieceFields kind accept total offset piece) =
      (be 1 kind ++ be 1 accept ++ be 2 total ++ be 2 offset) ++ BitVec.ofNat 8 piece.length :: piece := by
    rw [pieceFields, encodeFields_append, encodeFields_bytes]
    simp [encodeFields, be_one_eq]
  have hwidths : (pieceFields kind accept total offset piece).map Prod.fst =
      [1, 1, 2, 2] ++ 1 :: repeatWidths [1] piece.length := by
    rw [pieceFields, List.map_append, widths_bytes]
    rfl
  rw [hencode, hwidths] at hvalues
  rw [be_one_eq piece.length, List.append_assoc _ [_] piece, List.singleton_append]
  refine (parseList_of_count hhead).trans ?_
  rw [hcount, if_neg (by omega), if_neg (by simp)]
  exact congrArg Except.ok hvalues

theorem exec_writePlan_offered {s : State} {tag : Byte} {kind accept total offset : Nat} {piece : List Byte}
    (hkind : kind < 256) (haccept : accept < 256) (htotal : total < 65536) (hoffset : offset < 65536)
    (hpiece : piece.length ≤ 112)
    (h : Offered s .office 0x03 tag
      (be 1 kind ++ be 1 accept ++ be 2 total ++ be 2 offset ++ be 1 piece.length ++ piece)) :
    exec (.writePlan .office) s =
      .next (deliver .office
        (ownWritePlan ((pieceFields kind accept total offset piece).map Prod.snd) (s.judged .office))).transmit := by
  have hexec : exec (.writePlan .office) s = ends (serve .office .writePlan ownWritePlan s) := rfl
  rw [hexec, serve_of_offered h rfl (parse_writePlan hkind haccept htotal hoffset hpiece), ends]

/-- R203: the data of a pending section that a piece at `offset` goes on from. -/
def State.dataBefore (s : State) (kind accept total offset : Nat) : List Byte :=
  if offset == 0 then []
  else (s.loader.section_.filter fun p => p.continuedBy kind accept total offset).elim [] fun p => p.data

/-- R203: the checks of WRITE PLAN in order. -/
def planChecks (kind accept total offset length : Nat) (s : State) : List (Bool × Reply) :=
  [(kind == 0 || decide (7 < kind), refuse .range 1), (decide (3 < accept), refuse .range 2),
    (!lengthAllowed kind total, refuse .range 3), (decide (total < offset + length), refuse .range 5),
    (offset != 0 && (s.loader.section_.filter fun p => p.continuedBy kind accept total offset).isNone, refuse .state 4)]

theorem ownWritePlan_pieceFields (kind accept total offset : Nat) (piece : List Byte) (s : State) :
    ownWritePlan ((pieceFields kind accept total offset piece).map Prod.snd) s =
      unlessRefused s (planChecks kind accept total offset piece.length s)
        (addPiece s ⟨kind, accept, total, s.dataBefore kind accept total offset ++ piece⟩) :=
  congrArg (fun data => unlessRefused s _ (addPiece s ⟨kind, accept, total, s.dataBefore kind accept total offset ++ data⟩))
    (bytes_of_values piece)

/-! ### Writing the image -/

theorem Memory.readBytes_eq_map (m : Memory) (a n : Nat) :
    Memory.readBytes m a n = (List.range n).map fun i => m.read (a + i) := by
  refine List.ext_getElem? fun k => ?_
  rw [getElem?_readBytes, List.getElem?_map]
  by_cases hk : k < n
  · rw [if_pos hk, List.getElem?_range hk, Option.map_some]
  · rw [if_neg hk, List.getElem?_eq_none (by simpa using hk), Option.map_none]

/-- The first of the bytes written are read back. -/
theorem Memory.readBytes_writeBytes_append {m : Memory} (h : m.wf = true) (a : Nat) (bs cs : List Byte) :
    Memory.readBytes (m.writeBytes a (bs ++ cs)) a bs.length = bs := by
  refine List.ext_getElem? fun k => ?_
  rw [getElem?_readBytes]
  by_cases hk : k < bs.length
  · have hin : a ≤ a + k ∧ a + k < a + (bs ++ cs).length := by
      rw [List.length_append]
      omega
    rw [if_pos hk, read_writeBytes h, if_pos hin, Nat.add_sub_cancel_left, List.getD_append _ _ _ _ hk,
      List.getD_eq_getElem _ _ hk, List.getElem?_eq_getElem hk]
  · rw [if_neg hk, List.getElem?_eq_none (by omega)]

theorem planHeader_length (n : Nat) : (planHeader n).length = headerBytes := by simp [planHeader, length_be, headerBytes]

/-- R203: the image written to a memory that is fitted is read back as it was written. -/
theorem writeImage_fitted {s : State} (hfit : s.planFitted = true) (hwf : s.planMem.wf = true) (p : PendingSection) :
    writeImage s p =
      done
        { s with
          loader := { s.loader with section_ := none }
          planMem := Memory.writeBytes s.planMem 0 (planHeader (s.newImage p).length ++ s.newImage p) }
        (be 1 1 ++ be 2 (s.newImage p).length ++ be 1 1) := by
  have hwritten : s.writePlanBytes (planHeader (s.newImage p).length ++ s.newImage p) =
      { s with planMem := Memory.writeBytes s.planMem 0 (planHeader (s.newImage p).length ++ s.newImage p) } := by
    rw [State.writePlanBytes, if_pos hfit]
  have hback : State.planBytes
      { s with planMem := Memory.writeBytes s.planMem 0 (planHeader (s.newImage p).length ++ s.newImage p) } 0
        headerBytes = planHeader (s.newImage p).length := by
    rw [State.planBytes, if_pos hfit, ← planHeader_length (s.newImage p).length]
    exact Memory.readBytes_writeBytes_append hwf 0 _ _
  rw [writeImage, hwritten, hback, beq_self_eq_true]
  rfl

/-- R203: to a memory that is not fitted the image is lost; the zeros read back are no header. -/
theorem writeImage_unfitted {s : State} (hfit : s.planFitted = false) (p : PendingSection) :
    writeImage s p =
      done { s with loader := { s.loader with section_ := none } }
        (be 1 1 ++ be 2 (s.newImage p).length ++ be 1 0) := by
  have hlost (bs : List Byte) : s.writePlanBytes bs = s := by
    rw [State.writePlanBytes, if_neg (by simp [hfit])]
  have hback : (s.planBytes 0 headerBytes == planHeader (s.newImage p).length) = false := by
    rw [State.planBytes, if_neg (by simp [hfit])]
    rfl
  rw [writeImage, hlost, hback]
  rfl

/-! ### The accepted piece -/

theorem lengthAllowed_eq (kind n : Nat) :
    lengthAllowed kind n =
      match kind with
      | 1 => decide (n = 2)
      | 2 => decide (n ≤ 161 ∧ n % 4 = 1)
      | 3 => decide (n = 32)
      | 4 => decide (n = 96)
      | 5 => decide (n = 1)
      | 6 => decide (n = 6)
      | 7 => decide (n = 54)
      | _ => false := by
  unfold lengthAllowed
  split <;> simp [beq_eq_decide, Bool.decide_and]

/-- R203: a piece not at offset 0 goes on from the pending section, or from nothing. -/
theorem Option.isNone_filter_continuedBy (o : Option PendingSection) (kind accept total offset : Nat) :
    (o.filter fun p => p.continuedBy kind accept total offset).isNone =
      !(match o with
        | some q => decide (q.kind = kind ∧ q.accept = accept ∧ q.total = total ∧ q.data.length = offset)
        | none => false) := by
  cases o with
  | none => rfl
  | some q =>
    rw [Option.filter_some]
    simp only [PendingSection.continuedBy, beq_eq_decide, ← Bool.decide_and, and_assoc, decide_eq_true_eq]
    split
    · next h => rw [decide_eq_true h]; rfl
    · next h => rw [decide_eq_false h]; rfl

/-- R203: the data that an accepted piece joins. -/
theorem State.dataBefore_eq {s : State} {kind accept total offset : Nat}
    (h : (offset != 0 && (s.loader.section_.filter fun p => p.continuedBy kind accept total offset).isNone) = false) :
    s.dataBefore kind accept total offset =
      if offset = 0 then [] else match s.loader.section_ with | some q => q.data | none => [] := by
  rw [dataBefore]
  by_cases hzero : offset = 0
  · rw [if_pos (by simpa using hzero), if_pos hzero]
  · rw [if_neg (by simpa using hzero), if_neg hzero]
    have hsome : (s.loader.section_.filter fun p => p.continuedBy kind accept total offset).isNone = false := by
      simpa [hzero] using h
    cases hq : s.loader.section_ with
    | none => rfl
    | some q =>
      rw [hq, Option.filter_some] at hsome
      rw [Option.filter_some]
      split
      · rfl
      · next hnot => rw [if_neg hnot] at hsome; cases hsome

theorem addPiece_of_lt {s : State} {p : PendingSection} (h : p.data.length < p.total) :
    addPiece s p = done { s with loader := { s.loader with section_ := some p } } (be 1 0 ++ be 2 p.data.length) :=
  if_pos h

theorem addPiece_of_whole {s : State} {p : PendingSection} (h : p.data.length = p.total) :
    addPiece s p = writeImage s p := if_neg (by omega)

theorem planChecks_eq (kind accept total offset length : Nat) (s : State) :
    planChecks kind accept total offset length s =
      [(decide (kind = 0 ∨ 7 < kind), .refused .range 1 0xFF), (decide (3 < accept), .refused .range 2 0xFF),
        (!(match kind with
          | 1 => decide (total = 2)
          | 2 => decide (total ≤ 161 ∧ total % 4 = 1)
          | 3 => decide (total = 32)
          | 4 => decide (total = 96)
          | 5 => decide (total = 1)
          | 6 => decide (total = 6)
          | 7 => decide (total = 54)
          | _ => false), .refused .range 3 0xFF),
        (decide (total < offset + length), .refused .range 5 0xFF),
        (decide (offset ≠ 0) && !(match s.loader.section_ with
          | some q => decide (q.kind = kind ∧ q.accept = accept ∧ q.total = total ∧ q.data.length = offset)
          | none => false), .refused .state 4 0xFF)] := by
  rw [planChecks, Option.isNone_filter_continuedBy, lengthAllowed_eq, bne_eq_decide_ne, beq_eq_decide, ← Bool.decide_or] <;> rfl

/-- Settles O49: the sections kept by what `keepFirst` and `putSection` do, the request by its owner's checks. -/
theorem planIsWritten : Obligations.PlanIsWritten := by
  refine ⟨fun xs x => ⟨rfl, fun hlow hhigh hnew => ?_, fun hold => ?_, putSection_of_new, ?_⟩, ?_⟩
  · have hfirst : firstOfKind (keepFirst [] xs) x = true := by
      rw [firstOfKind_keepFirst_nil]
      exact decide_eq_true ⟨hlow, hhigh, hnew⟩
    rw [keepFirst_concat, if_pos hfirst]
  · have hnot : ¬firstOfKind (keepFirst [] xs) x = true := by
      rw [firstOfKind_keepFirst_nil, firstOfKind, decide_eq_true_eq]
      rintro ⟨hlow, hhigh, hnew⟩
      rcases hold with h | h | ⟨y, hy, hk⟩
      exacts [Nat.one_le_iff_ne_zero.1 hlow h, Nat.not_le.2 h hhigh, hnew y hy hk]
    rw [keepFirst_concat, if_neg hnot]
  · rintro before y after rfl hy h
    exact putSection_of_held hy h
  · intro s tag kind accept total offset piece hkind haccept htotal hoffset hpiece payload h t continued allowed
    have hexec := exec_writePlan_offered hkind haccept htotal hoffset hpiece h
    rw [ownWritePlan_pieceFields] at hexec
    obtain ⟨hrefused, haccepted⟩ :=
      firstDecides_of (fun x => exec (.writePlan .office) s = .next (deliver .office x).transmit) hexec
    have hchecks := planChecks_eq kind accept total offset piece.length t
    refine ⟨hchecks ▸ hrefused, fun hnone data hdata => ?_⟩
    have hpass : ∀ c ∈ planChecks kind accept total offset piece.length t, c.1 = false := hchecks.symm ▸ hnone
    have hbefore : t.dataBefore kind accept total offset ++ piece = data :=
      (congrArg (· ++ piece) (State.dataBefore_eq (hpass _ (List.mem_of_getElem? (i := 4) rfl)))).trans hdata.symm
    have hact := haccepted hpass
    rw [hbefore] at hact
    refine ⟨fun hpart => ?_, fun hwhole => ⟨fun hfit hwf => ?_, fun hfit => ?_⟩⟩
    · exact hact.trans (congrArg (fun a => (.next (deliver .office a).transmit : Result)) (addPiece_of_lt hpart))
    · rw [addPiece_of_whole hwhole, writeImage_fitted (s := t) hfit hwf] at hact
      exact hact
    · rw [addPiece_of_whole hwhole, writeImage_unfitted (s := t) hfit] at hact
      exact hact

end Sys2Proof.Machine
end

section
/-! PROOFS. The plan image: its header, its sections and the load report (12). -/

namespace Sys2Proof.Machine

/-! ### The image -/

theorem State.planBytes_eq (s : State) (a n : Nat) :
    s.planBytes a n = (List.range n).map fun i => if s.planFitted then s.planMem.read (a + i) else 0 := by
  rw [planBytes]
  by_cases h : s.planFitted = true
  · simp only [if_pos h, Memory.readBytes_eq_map]
  · simp only [if_neg h, List.map_const', List.length_range]

theorem imageLength_eq {header : List Byte} (h : header.length = 5) :
    imageLength header =
      if fromBe (header.take 2) = 0x5648 ∧ fromBe ((header.drop 2).take 1) = 1 ∧ fromBe (header.drop 3) ≤ 1000 then
        some (fromBe (header.drop 3))
      else none := by
  have hlength : ((header.drop 2).drop 1).take 2 = header.drop 3 := by
    rw [List.drop_drop]
    exact List.take_of_length_le (by simp [h])
  have hfields : fieldValues [2, 1, 2] header =
      [fromBe (header.take 2), fromBe ((header.drop 2).take 1), fromBe (header.drop 3)] := by
    simp only [fieldValues, hlength]
  rw [imageLength, hfields]

/-- The bytes of a section: its kind, its accept code, its data with their length, its check. -/
def sectionBytes (kind accept : Byte) (data check : List Byte) : List Byte :=
  kind :: accept :: (be 2 data.length ++ data ++ check)

theorem length_sectionBytes {kind accept : Byte} {data check : List Byte} (h : check.length = 2) :
    (sectionBytes kind accept data check).length = framingBytes + data.length := by
  simp only [sectionBytes, framingBytes, List.length_cons, List.length_append, length_be, h]
  omega

theorem sectionBytes_append (kind accept : Byte) (data check more : List Byte) :
    sectionBytes kind accept data check ++ more = kind :: accept :: (be 2 data.length ++ data ++ check ++ more) := by
  simp [sectionBytes]

theorem sectionsOf_cons (n : Nat) {kind accept : Byte} {data check more : List Byte} (hdata : data.length < 65536)
    (hcheck : check.length = 2) :
    sectionsOf (n + 1) (sectionBytes kind accept data check ++ more) =
      sectionBytes kind accept data check :: sectionsOf n more := by
  have hlength : ((sectionBytes kind accept data check ++ more).drop 2).take 2 = be 2 data.length := by
    rw [sectionBytes_append, List.drop_succ_cons, List.drop_succ_cons, List.drop_zero, List.append_assoc,
      List.append_assoc]
    exact List.take_left' (length_be ..)
  have hsize : framingBytes + fromBe (((sectionBytes kind accept data check ++ more).drop 2).take 2) =
      (sectionBytes kind accept data check).length := by
    rw [hlength, fromBe_be_of_lt hdata, length_sectionBytes hcheck]
  have hwhole : ¬((sectionBytes kind accept data check ++ more).length < framingBytes ∨
      (sectionBytes kind accept data check ++ more).length < (sectionBytes kind accept data check).length) := by
    rw [List.length_append, length_sectionBytes hcheck]
    omega
  rw [sectionsOf]
  simp only [hsize]
  rw [if_neg hwhole, List.take_left, List.drop_left]

theorem sectionsOf_stop (n : Nat) {bs : List Byte}
    (h : bs.length < framingBytes ∨ bs.length < framingBytes + fromBe ((bs.drop 2).take 2)) : sectionsOf n bs = [] := by
  cases n with
  | zero => rfl
  | succ n => exact if_pos h

/-! ### The decision on a section -/

theorem sectionData_bytes {kind accept : Byte} {data check : List Byte} (h : check.length = 2) :
    sectionData (sectionBytes kind accept data check) = data := by
  have hdrop : (sectionBytes kind accept data check).drop 4 = data ++ check := by
    rw [sectionBytes, List.drop_succ_cons, List.drop_succ_cons, List.append_assoc]
    exact List.drop_left' (length_be ..)
  rw [sectionData, hdrop, length_sectionBytes h, Nat.add_sub_cancel_left, List.take_left]

theorem sectionChecked_bytes {kind accept : Byte} {data check : List Byte} (h : check.length = 2) :
    sectionChecked (sectionBytes kind accept data check) =
      decide (checkBytes (kind :: accept :: (be 2 data.length ++ data)) = check) := by
  have hlength : (sectionBytes kind accept data check).length - 2 =
      (kind :: accept :: (be 2 data.length ++ data)).length := by
    rw [length_sectionBytes h]
    simp only [framingBytes, List.length_cons, List.length_append, length_be]
    omega
  have hsplit : sectionBytes kind accept data check = (kind :: accept :: (be 2 data.length ++ data)) ++ check := rfl
  rw [sectionChecked, hlength, hsplit, List.take_left, List.drop_left, beq_eq_decide]

theorem decisionOf_bytes {kind accept : Byte} {data check : List Byte} (h : check.length = 2) :
    decisionOf (sectionBytes kind accept data check) =
      if accept.toNat % 4 ≠ 1 then .left
      else if checkBytes (kind :: accept :: (be 2 data.length ++ data)) = check ∧
          lengthAllowed kind.toNat data.length = true then .taken
      else .bad := by
  have haccept : sectionAccept (sectionBytes kind accept data check) = accept.toNat % 4 := rfl
  have hkind : sectionKind (sectionBytes kind accept data check) = kind.toNat := rfl
  rw [decisionOf, haccept, hkind, sectionData_bytes h, sectionChecked_bytes h]
  refine if_congr Iff.rfl rfl ?_
  by_cases hgood : checkBytes (kind :: accept :: (be 2 data.length ++ data)) = check ∧
      lengthAllowed kind.toNat data.length = true
  · rw [if_pos hgood, if_neg (by simp [hgood.1, hgood.2])]
  · rw [if_neg hgood, if_pos]
    rcases not_and_or.1 hgood with hbad | hbad
    · simp [hbad]
    · simp [hbad]

theorem decisionOf_ne_absent (x : List Byte) : decisionOf x ≠ .absent := by
  rw [decisionOf]
  split
  · exact Decision.noConfusion
  · split <;> exact Decision.noConfusion

/-! ### The load report and the taken data -/

/-- R200: a cell of the report: what was decided stands; else the first section of the kind decides. -/
theorem get_foldl_recordSection (xs : List (List Byte)) (r : Table 7 Decision) (i : Nat) :
    (xs.foldl recordSection r).get i =
      (r.get i).map fun d =>
        if d = .absent then (xs.find? fun x => sectionKind x == i + 1).elim .absent decisionOf else d := by
  induction xs generalizing r with
  | nil =>
    cases h : r.get i with
    | none => simpa using h
    | some d => simp [h]
  | cons x xs ih =>
    rw [List.foldl_cons, ih]
    by_cases hx : sectionKind x = i + 1
    · have hnew : (recordSection r x).get i = (r.get i).map fun d => if d = .absent then decisionOf x else d := by
        rw [recordSection, if_neg (by omega), hx, Nat.add_sub_cancel, Table.get_modify, if_pos rfl]
        simp only [beq_iff_eq]
      rw [hnew, Option.map_map, List.find?_cons_of_pos (by simpa using hx)]
      refine congrArg (Option.map · (r.get i)) (funext fun d => ?_)
      by_cases hd : d = .absent
      · simp [hd, decisionOf_ne_absent]
      · simp [hd]
    · have hsame : (recordSection r x).get i = r.get i := by
        rw [recordSection]
        split
        · rfl
        · rw [Table.get_modify, if_neg (by omega)]
      rw [hsame, List.find?_cons_of_neg (by simpa using hx)]

theorem reportFor_get (xs : List (List Byte)) {k : Nat} (hlow : 1 ≤ k) (hhigh : k ≤ 7) :
    (reportFor xs).get (k - 1) = some ((xs.find? fun x => sectionKind x == k).elim .absent decisionOf) := by
  rw [reportFor, get_foldl_recordSection, Table.get_replicate, if_pos (by omega), Nat.sub_add_cancel hlow]
  rfl

theorem takenData_eq_some {xs : List (List Byte)} {kind : Nat} {data : List Byte} :
    takenData xs kind = some data ↔
      ∃ before x after, xs = before ++ x :: after ∧ (∀ y ∈ before, sectionKind y ≠ kind) ∧ sectionKind x = kind ∧
        decisionOf x = .taken ∧ data = sectionData x := by
  simp only [takenData, Option.map_eq_some_iff, Option.filter_eq_some_iff, List.find?_eq_some_iff_append, beq_iff_eq,
    Bool.not_eq_true', beq_eq_false_iff_ne]
  constructor
  · rintro ⟨x, ⟨⟨hk, before, after, hxs, hbefore⟩, ht⟩, hd⟩
    exact ⟨before, x, after, hxs, hbefore, hk, ht, hd.symm⟩
  · rintro ⟨before, x, after, hxs, hbefore, hk, ht, hd⟩
    exact ⟨x, ⟨⟨hk, before, after, hxs, hbefore⟩, ht⟩, hd.symm⟩

end Sys2Proof.Machine
end

section
/-! PROOFS. The taken sections applied (12): what each leaves in its tables and what it leaves as it is. -/

namespace Sys2Proof.Machine

/-! ### A table filled entry by entry -/

/-- Entry by entry from 0 to `n - 1`, each changed by its number. -/
theorem Table.get_foldl_modify {m : Nat} {α : Type} (t : Table m α) (f : Nat → α → α) (n i : Nat) :
    ((List.range n).foldl (fun t k => t.modify k (f k)) t).get i =
      if i < n then (t.get i).map (f i) else t.get i := by
  induction n with
  | zero => rfl
  | succ n ih =>
    rw [List.range_succ, List.foldl_concat, Table.get_modify, ih]
    rcases lt_trichotomy i n with h | rfl | h
    · rw [if_neg (by omega), if_pos h, if_pos (by omega)]
    · rw [if_pos rfl, if_neg (by omega), if_pos (by omega)]
    · rw [if_neg (by omega), if_neg (by omega), if_neg (by omega)]

theorem Table.modify_id {m : Nat} {α : Type} (t : Table m α) (i : Nat) : t.modify i (fun x => x) = t := by
  refine Table.ext_get fun j => ?_
  rw [Table.get_modify]
  split
  · exact Option.map_id_apply
  · rfl

/-- What runs over numbers and changes one part of the state only. -/
theorem State.forEach_part {α : Type} (put : α → State) (f : State → Nat → State) (g : α → Nat → α)
    (h : ∀ x k, f (put x) k = put (g x k)) (n : Nat) (x : α) :
    State.forEach n f (put x) = put ((List.range n).foldl g x) :=
  List.foldl_hom put fun x k => h x k

/-! ### STATIONS -/

/-- The state with other stations, set records and engine state. -/
def State.withObjects (s : State) (line : Line) (sets : Table 12 (Option SetRecord)) (billing : BillingEngine) : State :=
  { s with line := line, sets := sets, billing := billing }

theorem State.placeStation_frame (v : List Nat) (s : State) (k : Nat) :
    State.placeStation v s k =
      s.withObjects (State.placeStation v s k).line (State.placeStation v s k).sets (State.placeStation v s k).billing := by
  unfold placeStation
  dsimp only
  split
  · rfl
  · split
    · next c _ _ => cases c <;> rfl
    · rfl

theorem State.foldl_placeStation_frame (v : List Nat) (ks : List Nat) : ∀ s : State,
    ks.foldl (State.placeStation v) s =
      s.withObjects (ks.foldl (State.placeStation v) s).line (ks.foldl (State.placeStation v) s).sets
        (ks.foldl (State.placeStation v) s).billing := by
  induction ks with
  | nil => exact fun s => rfl
  | cons k ks ih =>
    intro s
    rw [List.foldl_cons]
    refine (ih _).trans ?_
    generalize ks.foldl (State.placeStation v) (State.placeStation v s k) = u
    rw [placeStation_frame v s k]
    rfl

theorem State.applyStations_frame (s : State) (bs : List Byte) :
    s.applyStations bs = s.withObjects (s.applyStations bs).line (s.applyStations bs).sets (s.applyStations bs).billing :=
  State.foldl_placeStation_frame _ _ s

/-! ### STAGES -/

/-- R141: what STAGES makes of stage `k`: its four bytes where they are good, else what it was. -/
def State.stagePlaced (s : State) (v : List Nat) (k : Nat) (x : Stage) : Stage :=
  let a := v.getD (4 * k) 0
  let b := v.getD (4 * k + 1) 0
  let dead := v.getD (4 * k + 3) 0
  if s.inputAllowed a && s.inputAllowed b && (a != b || a == 255) && decide (1 ≤ dead) && decide (dead ≤ 10) then
    { x with inputA := inputSet a, inputB := inputSet b, auto := bitOf (v.getD (4 * k + 2) 0) 0, deadTime := dead }
  else x

/-- The state with other stages. -/
def State.withStages (s : State) (stages : Table 8 Stage) : State := { s with stages := stages }

theorem State.placeStage_eq (v : List Nat) (s : State) (k : Nat) :
    State.placeStage v s k = s.withStages (s.stages.modify k (s.stagePlaced v k)) := by
  unfold placeStage stagePlaced
  dsimp only
  split
  · rfl
  · rw [Table.modify_id] <;> rfl

theorem State.forEach_placeStage (v : List Nat) (s : State) (n : Nat) :
    State.forEach n (State.placeStage v) s =
      s.withStages ((List.range n).foldl (fun t k => t.modify k (s.stagePlaced v k)) s.stages) :=
  State.forEach_part s.withStages _ _ (fun x k => State.placeStage_eq v (s.withStages x) k) n s.stages

theorem State.stage_forEach_placeStage (v : List Nat) (s : State) {k : Nat} (hk : k < 8) {x : Stage}
    (h : s.stage k = some x) : (State.forEach 8 (State.placeStage v) s).stage k = some (s.stagePlaced v k x) := by
  rw [forEach_placeStage]
  refine (Table.get_foldl_modify s.stages (s.stagePlaced v) 8 k).trans ?_
  rw [if_pos hk]
  exact congrArg (Option.map _) h

/-! ### MARKS -/

/-- R96: the marks that the MARKS data have for set `i`. -/
def marksIn (v : List Nat) (i : Nat) : Marks :=
  ⟨v.getD (4 * i) 0, v.getD (4 * i + 1) 0, v.getD (4 * i + 2) 0, v.getD (4 * i + 3) 0⟩

theorem Marks.firstBad_none_isNone (m : Marks) :
    (m.firstBad none).isNone = true ↔ m.low < m.lowClear ∧ m.lowClear < m.highClear ∧ m.highClear < m.high := by
  simp only [firstBad, Option.elim_none, Bool.or_false, decide_eq_true_eq]
  split
  · simp; omega
  · split
    · simp; omega
    · split
      · simp; omega
      · simp; omega

/-- R96: what MARKS makes of the marks of set `i`. -/
def marksPlaced (v : List Nat) (i : Nat) (m : Marks) : Marks :=
  if ((marksIn v i).firstBad none).isNone then marksIn v i else m

/-- The state with other marks. -/
def State.withMarks (s : State) (marks : Table 12 Marks) : State := { s with marks := marks }

theorem State.placeMarks_eq (v : List Nat) (s : State) (i : Nat) :
    State.placeMarks v s i = s.withMarks (s.marks.modify i (marksPlaced v i)) := by
  by_cases h : ((marksIn v i).firstBad none).isNone = true
  · have hplace : State.placeMarks v s i = s.withMarks (s.marks.set i (marksIn v i)) := if_pos h
    have hmarks : marksPlaced v i = fun _ => marksIn v i := funext fun m => if_pos h
    rw [hplace, hmarks] <;> rfl
  · have hplace : State.placeMarks v s i = s := if_neg h
    have hmarks : marksPlaced v i = fun m => m := funext fun m => if_neg h
    rw [hplace, hmarks, Table.modify_id] <;> rfl

theorem State.forEach_placeMarks (v : List Nat) (s : State) (n : Nat) :
    State.forEach n (State.placeMarks v) s =
      s.withMarks ((List.range n).foldl (fun t k => t.modify k (marksPlaced v k)) s.marks) :=
  State.forEach_part s.withMarks _ _ (fun x k => State.placeMarks_eq v (s.withMarks x) k) n s.marks

/-- A field of a layout of fields of one width. -/
theorem getD_fieldValues_replicate (w n k : Nat) (bs : List Byte) (h : k < n) :
    (fieldValues (List.replicate n w) bs).getD k 0 = fromBe ((bs.drop (w * k)).take w) := by
  induction n generalizing bs k with
  | zero => omega
  | succ n ih =>
    rw [List.replicate_succ, fieldValues]
    cases k with
    | zero => rfl
    | succ k => rw [List.getD_cons_succ, ih k _ (by omega), List.drop_drop, Nat.mul_succ, Nat.add_comm]

/-! ### SWEEP and TALLY -/

/-- R19: what SWEEP makes of the clock, each setting judged on its own. -/
def Clock.swept (c : Clock) (bs : List Byte) : Clock :=
  let interval := fromBe (bs.take 2)
  let limit := fromBe ((bs.drop 2).take 4)
  { c with
    interval := if 60 ≤ interval ∧ interval ≤ 900 then interval else c.interval
    limit := if 1000 ≤ limit ∧ limit ≤ 4000000 then limit else c.limit }

theorem State.applySweep_eq (s : State) (bs : List Byte) :
    s.applySweep bs = { s with clock := s.clock.swept bs } := rfl

theorem Clock.swept_be (c : Clock) {interval limit : Nat} (hi : interval < 65536) (hl : limit < 4294967296) :
    c.swept (be 2 interval ++ be 4 limit) =
      { c with
        interval := if 60 ≤ interval ∧ interval ≤ 900 then interval else c.interval
        limit := if 1000 ≤ limit ∧ limit ≤ 4000000 then limit else c.limit } := by
  have hfirst : fromBe ((be 2 interval ++ be 4 limit).take 2) = interval := by
    rw [List.take_left' (length_be ..), fromBe_be_of_lt hi]
  have hsecond : fromBe (((be 2 interval ++ be 4 limit).drop 2).take 4) = limit := by
    rw [List.drop_left' (length_be ..), List.take_of_length_le (length_be ..).le, fromBe_be_of_lt hl]
  rw [swept, hfirst, hsecond]

/-- R176: the banks that the TALLY byte fits. -/
def Tally.banked (t : Tally) (bs : List Byte) : Tally :=
  { t with bank0 := bitOf (fromBe bs) 0, bank1 := bitOf (fromBe bs) 1 }

theorem State.applyTally_eq (s : State) (bs : List Byte) :
    s.applyTally bs = { s with tally := s.tally.banked bs } := rfl

theorem bitOf_fromBe_one (b : Byte) (i : Nat) : bitOf (fromBe [b]) i = b.getLsbD i := by
  rw [bitOf_eq_testBit, ← BitVec.testBit_toNat]
  simp [fromBe]

/-! ### WINDOWS -/

/-- R44: the fields that the WINDOWS data have for window `k`. -/
def windowIn (bs : List Byte) (k : Nat) : WindowFields :=
  let v := fieldValues [1, 2, 2, 1, 1, 1, 1] (bs.drop (9 * k))
  ⟨v.getD 0 0, v.getD 1 0, v.getD 2 0, v.getD 3 0, v.getD 4 0, v.getD 5 0, v.getD 6 0⟩

/-- R44: what WINDOWS makes of window `k`. -/
def Windows.placed (ws : Windows) (bs : List Byte) (k : Nat) : Windows :=
  if ((windowIn bs k).firstBad k).isNone then ws.write k (windowIn bs k) else ws

/-- The state with other windows. -/
def State.withWindows (s : State) (windows : Windows) : State := { s with windows := windows }

theorem State.placeWindow_eq (bs : List Byte) (s : State) (k : Nat) :
    State.placeWindow bs s k = s.withWindows (s.windows.placed bs k) := by
  by_cases h : ((windowIn bs k).firstBad k).isNone = true
  · have hplace : State.placeWindow bs s k = s.withWindows (s.windows.write k (windowIn bs k)) := if_pos h
    rw [hplace, Windows.placed, if_pos h]
  · have hplace : State.placeWindow bs s k = s := if_neg h
    rw [hplace, Windows.placed, if_neg h] <;> rfl

theorem State.forEach_placeWindow (bs : List Byte) (s : State) (n : Nat) :
    State.forEach n (State.placeWindow bs) s =
      s.withWindows ((List.range n).foldl (fun ws k => ws.placed bs k) s.windows) :=
  State.forEach_part s.withWindows _ _ (fun x k => State.placeWindow_eq bs (s.withWindows x) k) n s.windows

theorem Windows.account_placed (ws : Windows) (bs : List Byte) (k : Nat) :
    (ws.placed bs k).account =
      ws.account.modify k fun w => if ((windowIn bs k).firstBad k).isNone then (windowIn bs k).account else w := by
  refine Table.ext_get fun i => ?_
  rw [placed, Table.get_modify]
  by_cases h : ((windowIn bs k).firstBad k).isNone = true
  · simp only [if_pos h]
    by_cases hk : k < 4
    · rw [Windows.write_account _ _ hk, Table.get_set]
    · rw [Windows.write_set _ _ (by omega)]
      split
      · rw [Table.get_eq_none _ (by omega)] <;> rfl
      · rfl
  · simp only [if_neg h, Option.map_id']
    split <;> rfl

theorem Windows.get_sets_placed (ws : Windows) (bs : List Byte) (k i : Nat) :
    (ws.placed bs k).sets.get i =
      if k = i + 4 then
        (ws.sets.get i).map fun w => if ((windowIn bs k).firstBad k).isNone then (windowIn bs k).set else w
      else ws.sets.get i := by
  rw [placed]
  by_cases h : ((windowIn bs k).firstBad k).isNone = true
  · simp only [if_pos h]
    by_cases hk : k < 4
    · rw [Windows.write_account _ _ hk, if_neg (by omega)]
    · rw [Windows.write_set _ _ (by omega), Table.get_set]
      exact if_congr (by omega) rfl rfl
  · simp only [if_neg h, Option.map_id']
    split <;> rfl

/-- R44: an account window after WINDOWS. -/
theorem Windows.get_account_foldl_placed (ws : Windows) (bs : List Byte) {n i : Nat} (h : i < n) :
    ((List.range n).foldl (fun ws k => ws.placed bs k) ws).account.get i =
      (ws.account.get i).map fun w => if ((windowIn bs i).firstBad i).isNone then (windowIn bs i).account else w := by
  have hfold := List.foldl_hom Windows.account (l := List.range n) (init := ws) (g₁ := fun ws k => ws.placed bs k)
    (g₂ := fun t k => t.modify k fun w =>
      if ((windowIn bs k).firstBad k).isNone then (windowIn bs k).account else w)
    fun x k => (x.account_placed bs k).symm
  rw [← hfold, Table.get_foldl_modify, if_pos h]

/-- R44: a set window after WINDOWS. -/
theorem Windows.get_sets_foldl_placed (ws : Windows) (bs : List Byte) (n i : Nat) :
    ((List.range n).foldl (fun ws k => ws.placed bs k) ws).sets.get i =
      if i + 4 < n then
        (ws.sets.get i).map fun w =>
          if ((windowIn bs (i + 4)).firstBad (i + 4)).isNone then (windowIn bs (i + 4)).set else w
      else ws.sets.get i := by
  induction n with
  | zero => rfl
  | succ n ih =>
    rw [List.range_succ, List.foldl_concat, get_sets_placed, ih]
    rcases lt_trichotomy (i + 4) n with h | rfl | h
    · rw [if_neg (by omega), if_pos h, if_pos (by omega)]
    · rw [if_pos rfl, if_neg (by omega), if_pos (by omega)]
    · rw [if_neg (by omega), if_neg (by omega), if_neg (by omega)]

theorem windowIn_bytes {head tail : List Byte} {k : Nat} {f : WindowFields} (hhead : head.length = 9 * k)
    (hfit : ∀ x ∈ windowPayload 0 f, x.2 < 256 ^ x.1) : windowIn (head ++ f.bytes ++ tail) k = f := by
  obtain ⟨-, henabled, hbase, hmask, hroles, hdeny, hmode, htag, -⟩ := by
    simpa only [windowPayload, List.forall_mem_cons] using hfit
  have hdrop : (head ++ f.bytes ++ tail).drop (9 * k) = f.bytes ++ tail := by
    rw [List.append_assoc, List.drop_left' hhead]
  have hvalues : fieldValues [1, 2, 2, 1, 1, 1, 1] (f.bytes ++ tail) =
      [f.enabled, f.base, f.mask, f.roles, f.deny, f.mode, f.tag] := by
    simp only [WindowFields.bytes, List.append_assoc, fieldValues_be, Nat.mod_eq_of_lt henabled, Nat.mod_eq_of_lt hbase,
      Nat.mod_eq_of_lt hmask, Nat.mod_eq_of_lt hroles, Nat.mod_eq_of_lt hdeny, Nat.mod_eq_of_lt hmode,
      Nat.mod_eq_of_lt htag] <;> rfl
  rw [windowIn, hdrop, hvalues]
  rfl

theorem WindowFields.firstBad_account (f : WindowFields) {k : Nat} (hk : k < 4) :
    (f.firstBad k).isNone = true ↔
      f.enabled ≤ 1 ∧ f.base ≤ 1023 ∧ f.mask ≤ 1023 ∧ f.roles ≤ 7 ∧ f.deny ≤ 1 ∧ f.mode ≤ 2 ∧ f.tag ≤ 3 := by
  have hnot : decide (4 ≤ k) = false := decide_eq_false (by omega)
  simp only [firstBad, hnot, Bool.false_eq_true, if_false]
  grind

theorem WindowFields.firstBad_set (f : WindowFields) {k : Nat} (hk : 4 ≤ k) :
    (f.firstBad k).isNone = true ↔
      f.enabled ≤ 1 ∧ f.base ≤ 11 ∧ f.mask ≤ 15 ∧ f.roles ≤ 7 ∧ f.deny ≤ 1 ∧ f.mode = 0 ∧ f.tag = 0 := by
  simp only [firstBad, decide_eq_true hk, if_true]
  grind

end Sys2Proof.Machine
end

section
/-! PROOFS. The sections of an image applied in their order (12). -/

namespace Sys2Proof.Machine

/-! ### The steps in their order -/

/-- The site number becomes `n`. -/
def State.withSite (s : State) (n : Nat) : State := { s with loader := { s.loader with site := n } }

/-- R199: the state once SITE and STATIONS are applied. -/
def State.afterStations (s : State) (xs : List (List Byte)) : State :=
  (s.withSite (siteFor xs)).ifTaken (takenData xs 2) State.applyStations

/-- R199: the state once STAGES is applied too. -/
def State.afterStages (s : State) (xs : List (List Byte)) : State :=
  (s.afterStations xs).ifTaken (takenData xs 3) fun s bs => State.forEach 8 (State.placeStage (numbers bs)) s

/-- R96: the marks once MARKS is applied. -/
def marksAfter (d : Option (List Byte)) (t : Table 12 Marks) : Table 12 Marks :=
  d.elim t fun bs =>
    (List.range 12).foldl (fun t k => t.modify k (marksPlaced (fieldValues (List.replicate 48 2) bs) k)) t

/-- R44: the windows once WINDOWS is applied. -/
def Windows.after (ws : Windows) (d : Option (List Byte)) : Windows :=
  d.elim ws fun bs => (List.range 6).foldl (fun ws k => ws.placed bs k) ws

theorem siteFor_eq (xs : List (List Byte)) :
    siteFor xs = match takenData xs 1 with | some bs => fromBe bs | none => 0 := by
  unfold siteFor
  cases takenData xs 1 <;> rfl

theorem State.afterStations_eq (s : State) (xs : List (List Byte)) :
    s.afterStations xs =
      match takenData xs 2 with
      | some bs => (s.withSite (siteFor xs)).applyStations bs
      | none => s.withSite (siteFor xs) := by
  unfold afterStations
  cases takenData xs 2 <;> rfl

theorem State.afterStages_eq (s : State) (xs : List (List Byte)) :
    s.afterStages xs =
      match takenData xs 3 with
      | some bs => State.forEach 8 (State.placeStage (numbers bs)) (s.afterStations xs)
      | none => s.afterStations xs := by
  unfold afterStages
  cases takenData xs 3 <;> rfl

theorem State.afterStations_frame (s : State) (xs : List (List Byte)) :
    s.afterStations xs =
      (s.withSite (siteFor xs)).withObjects (s.afterStations xs).line (s.afterStations xs).sets
        (s.afterStations xs).billing := by
  unfold afterStations
  cases takenData xs 2 with
  | none => rfl
  | some bs => exact (s.withSite (siteFor xs)).applyStations_frame bs

theorem State.afterStages_frame (s : State) (xs : List (List Byte)) :
    s.afterStages xs = (s.afterStations xs).withStages (s.afterStages xs).stages := by
  unfold afterStages
  cases takenData xs 3 with
  | none => rfl
  | some bs =>
    rw [ifTaken, Option.elim_some, forEach_placeStage]
    rfl

theorem State.ifTaken_placeMarks (s : State) (d : Option (List Byte)) :
    (s.ifTaken d fun s bs => State.forEach 12 (State.placeMarks (fieldValues (List.replicate 48 2) bs)) s) =
      s.withMarks (marksAfter d s.marks) := by
  cases d with
  | none => rfl
  | some bs => rw [ifTaken, Option.elim_some, forEach_placeMarks, marksAfter, Option.elim_some]

theorem State.ifTaken_applyTally (s : State) (d : Option (List Byte)) :
    s.ifTaken d State.applyTally = { s with tally := d.elim s.tally s.tally.banked } := by
  cases d with
  | none => rfl
  | some bs => exact s.applyTally_eq bs

theorem State.ifTaken_applySweep (s : State) (d : Option (List Byte)) :
    s.ifTaken d State.applySweep = { s with clock := d.elim s.clock s.clock.swept } := by
  cases d with
  | none => rfl
  | some bs => exact s.applySweep_eq bs

theorem State.ifTaken_placeWindow (s : State) (d : Option (List Byte)) :
    (s.ifTaken d fun s bs => State.forEach 6 (State.placeWindow bs) s) = s.withWindows (s.windows.after d) := by
  cases d with
  | none => rfl
  | some bs => rw [ifTaken, Option.elim_some, forEach_placeWindow, Windows.after, Option.elim_some]

/-- R199: the image applied: stations and stages, then what the other sections make of their own tables. -/
theorem State.applySections_eq (s : State) (xs : List (List Byte)) :
    s.applySections xs =
      { s.afterStages xs with
        marks := marksAfter (takenData xs 4) s.marks
        tally := (takenData xs 5).elim s.tally s.tally.banked
        clock := (takenData xs 6).elim s.clock s.clock.swept
        windows := s.windows.after (takenData xs 7) } := by
  have hsteps : s.applySections xs =
      ((((s.afterStages xs).ifTaken (takenData xs 4) fun s bs =>
        State.forEach 12 (State.placeMarks (fieldValues (List.replicate 48 2) bs)) s).ifTaken (takenData xs 5)
          State.applyTally).ifTaken (takenData xs 6) State.applySweep).ifTaken (takenData xs 7) fun s bs =>
            State.forEach 6 (State.placeWindow bs) s := rfl
  rw [hsteps, ifTaken_placeMarks, ifTaken_applyTally, ifTaken_applySweep, ifTaken_placeWindow, afterStages_frame,
    afterStations_frame]
  rfl

/-! ### What the image leaves -/

theorem State.applySections_of_none {s : State} {xs : List (List Byte)}
    (h : ∀ k, 1 ≤ k → k ≤ 7 → takenData xs k = none) :
    s.applySections xs = { s with loader := { s.loader with site := 0 } } := by
  have hnone (k : Nat) (hk : 1 ≤ k ∧ k ≤ 7) : takenData xs k = none := h k hk.1 hk.2
  have hsite : siteFor xs = 0 := by rw [siteFor, hnone 1 (by decide)] <;> rfl
  have hstages : s.afterStages xs = s.withSite 0 := by
    rw [afterStages, afterStations, hnone 2 (by decide), hnone 3 (by decide), hsite] <;> rfl
  rw [applySections_eq, hstages, hnone 4 (by decide), hnone 5 (by decide), hnone 6 (by decide), hnone 7 (by decide)] <;> rfl

/-- R199: what loading an image never changes. -/
theorem State.applySections_frame (s : State) (xs : List (List Byte)) :
    s.applySections xs =
      { s with
        loader := { s.loader with site := siteFor xs }
        line := (s.afterStations xs).line
        sets := (s.afterStations xs).sets
        billing := (s.afterStations xs).billing
        stages := (s.afterStages xs).stages
        marks := marksAfter (takenData xs 4) s.marks
        tally := (takenData xs 5).elim s.tally s.tally.banked
        clock := (takenData xs 6).elim s.clock s.clock.swept
        windows := s.windows.after (takenData xs 7) } := by
  rw [applySections_eq, afterStages_frame, afterStations_frame]
  rfl

theorem marksAfter_get {d : Option (List Byte)} {t : Table 12 Marks} {i : Nat} {m : Marks} (h : t.get i = some m) :
    (marksAfter d t).get i =
      some (match d with
        | some bs =>
          let mark := fun j => fromBe ((bs.drop (8 * i + 2 * j)).take 2)
          if mark 0 < mark 1 ∧ mark 1 < mark 2 ∧ mark 2 < mark 3 then ⟨mark 0, mark 1, mark 2, mark 3⟩ else m
        | none => m) := by
  cases d with
  | none => exact h
  | some bs =>
    have hi := t.lt_of_get h
    have hmark (j : Nat) (hj : j < 4) :
        (fieldValues (List.replicate 48 2) bs).getD (4 * i + j) 0 = fromBe ((bs.drop (8 * i + 2 * j)).take 2) := by
      rw [getD_fieldValues_replicate 2 48 _ bs (by omega), Nat.mul_add, ← Nat.mul_assoc]
    have hmarks : marksIn (fieldValues (List.replicate 48 2) bs) i =
        ⟨fromBe ((bs.drop (8 * i + 2 * 0)).take 2), fromBe ((bs.drop (8 * i + 2 * 1)).take 2),
          fromBe ((bs.drop (8 * i + 2 * 2)).take 2), fromBe ((bs.drop (8 * i + 2 * 3)).take 2)⟩ := by
      rw [← hmark 0 (by decide), ← hmark 1 (by decide), ← hmark 2 (by decide), ← hmark 3 (by decide)]
      rfl
    rw [marksAfter, Option.elim_some, Table.get_foldl_modify, if_pos hi, h, Option.map_some, marksPlaced, hmarks]
    exact congrArg some (if_congr (Marks.firstBad_none_isNone _) rfl rfl)

theorem Windows.after_account {ws : Windows} {head tail : List Byte} {k : Nat} {f : WindowFields} (hk : k < 4)
    (hhead : head.length = 9 * k) (hfit : ∀ x ∈ windowPayload 0 f, x.2 < 256 ^ x.1) :
    (ws.after (some (head ++ f.bytes ++ tail))).account.get k =
      if f.enabled ≤ 1 ∧ f.base ≤ 1023 ∧ f.mask ≤ 1023 ∧ f.roles ≤ 7 ∧ f.deny ≤ 1 ∧ f.mode ≤ 2 ∧ f.tag ≤ 3 then
        some f.account
      else ws.account.get k := by
  obtain ⟨w, hw⟩ := Option.isSome_iff_exists.1 ((ws.account.get_isSome k).trans (decide_eq_true hk))
  rw [after, Option.elim_some, get_account_foldl_placed ws _ (show k < 6 by omega), windowIn_bytes hhead hfit, hw,
    Option.map_some, ← apply_ite some]
  exact congrArg some (if_congr (f.firstBad_account hk) rfl rfl)

theorem Windows.after_set {ws : Windows} {head tail : List Byte} {k : Nat} {f : WindowFields} (hlow : 4 ≤ k) (hk : k < 6)
    (hhead : head.length = 9 * k) (hfit : ∀ x ∈ windowPayload 0 f, x.2 < 256 ^ x.1) :
    (ws.after (some (head ++ f.bytes ++ tail))).sets.get (k - 4) =
      if f.enabled ≤ 1 ∧ f.base ≤ 11 ∧ f.mask ≤ 15 ∧ f.roles ≤ 7 ∧ f.deny ≤ 1 ∧ f.mode = 0 ∧ f.tag = 0 then some f.set
      else ws.sets.get (k - 4) := by
  obtain ⟨w, hw⟩ := Option.isSome_iff_exists.1 ((ws.sets.get_isSome (k - 4)).trans (decide_eq_true (by omega)))
  rw [after, Option.elim_some, get_sets_foldl_placed, Nat.sub_add_cancel hlow, if_pos hk, windowIn_bytes hhead hfit, hw,
    Option.map_some, ← apply_ite some]
  exact congrArg some (if_congr (f.firstBad_set hlow) rfl rfl)

end Sys2Proof.Machine
end

section
/-! PROOFS. The entries of STATIONS and STAGES, IDENTIFY and PLAN LOADED (12). -/

namespace Sys2Proof.Machine

/-! ### An entry of the STATIONS data -/

/-- Four numbers in a row, read by their place. -/
theorem getD_four {v before after : List Nat} {n w x y z : Nat} (hn : before.length = n)
    (hv : v = before ++ [w, x, y, z] ++ after) :
    v.getD n 0 = w ∧ v.getD (n + 1) 0 = x ∧ v.getD (n + 2) 0 = y ∧ v.getD (n + 3) 0 = z := by
  subst hn hv
  simp [List.getD]

theorem Table.any_used_iff {n : Nat} {α : Type} (t : Table n (Option α)) (p : α → Bool) :
    (t.cells.any fun e => e.any p) = true ↔ ∃ i x, t.get i = some (some x) ∧ p x = true := by
  rw [List.any_eq_true]
  constructor
  · rintro ⟨_ | x, he, hp⟩
    · exact absurd hp Bool.false_ne_true
    · obtain ⟨i, hi⟩ := List.getElem?_of_mem he
      exact ⟨i, x, hi, hp⟩
  · rintro ⟨i, x, hi, hx⟩
    exact ⟨some x, List.mem_of_getElem? hi, hx⟩

/-- R53: checks 1 to 6 of ENROL STATION where the class is known. -/
theorem enrolChecks_any_iff (l : Line) (a o k : Nat) (c : StationClass) :
    ((enrolChecks l a c.value o k).any fun x => x.1) = true ↔
      a = 0 ∨ 62 < a ∨ c.lastObject < o ∨ (if c = .meter then 7 < k else k ≠ 0) ∨
        ∃ e st, l.stations.get e = some (some st) ∧ (st.address = a ∨ st.cls = c ∧ st.object = o) := by
  have hvalue : ¬3 < c.value := by cases c <;> decide
  have hstage : (if some c = some StationClass.meter then decide (7 < k) else k != 0) = true ↔
      if c = .meter then 7 < k else k ≠ 0 := by
    by_cases hc : c = .meter
    · simp [hc]
    · simp [hc]
  have hheld : (∃ e st, l.stations.get e = some (some st) ∧ (st.address = a ∨ st.cls = c ∧ st.object = o)) ↔
      (∃ e st, l.stations.get e = some (some st) ∧ st.address = a) ∨
        ∃ e st, l.stations.get e = some (some st) ∧ st.cls = c ∧ st.object = o := by
    simp only [and_or_left, exists_or]
  simp only [enrolChecks, StationClass.classOf_value, Option.elim_some, Line.entryAt_isSome, Line.enrolled_eq,
    List.any_cons, List.any_nil, Bool.or_eq_true, Table.any_used_iff, beq_iff_eq, Bool.and_eq_true, decide_eq_true_eq,
    hstage, hheld, hvalue, Bool.false_eq_true, false_or, or_false, or_assoc]

theorem enrolChecks_any_of_none {l : Line} {a cls o k : Nat} (h : 3 < cls) :
    ((enrolChecks l a cls o k).any fun x => x.1) = true := by
  simp [enrolChecks, h]

/-- What an entry that passes no check says, as the statement gives it by the class. -/
theorem enrolChecks_any_of_barred {l : Line} {a cls o k : Nat}
    (h : a = 0 ∨ 62 < a ∨ classOf cls = none ∨ (classOf cls = some .set ∧ 11 < o) ∨
      (classOf cls = some .bowser ∧ 2 < o) ∨ (classOf cls = some .board ∧ 7 < o) ∨
      (classOf cls = some .meter ∧ (11 < o ∨ 7 < k)) ∨ (classOf cls ≠ some .meter ∧ k ≠ 0) ∨
      ∃ e st, l.stations.get e = some (some st) ∧ (st.address = a ∨ (classOf cls = some st.cls ∧ st.object = o))) :
    ((enrolChecks l a cls o k).any fun x => x.1) = true := by
  by_cases hcls : 3 < cls
  · exact enrolChecks_any_of_none hcls
  · obtain ⟨c, rfl⟩ := exists_class_value hcls
    rw [StationClass.classOf_value] at h
    rw [enrolChecks_any_iff]
    rcases h with h | h | h | ⟨h, ho⟩ | ⟨h, ho⟩ | ⟨h, ho⟩ | ⟨h, ho | hk⟩ | ⟨h, hk⟩ | ⟨e, st, he, ha | ⟨hc, ho⟩⟩
    · exact .inl h
    · exact .inr (.inl h)
    · cases h
    · cases h; exact .inr (.inr (.inl ho))
    · cases h; exact .inr (.inr (.inl ho))
    · cases h; exact .inr (.inr (.inl ho))
    · cases h; exact .inr (.inr (.inl ho))
    · cases h; exact .inr (.inr (.inr (.inl hk)))
    · exact .inr (.inr (.inr (.inl ((if_neg fun hc => h (congrArg some hc)).symm ▸ hk))))
    · exact .inr (.inr (.inr (.inr ⟨e, st, he, .inl ha⟩)))
    · exact .inr (.inr (.inr (.inr ⟨e, st, he, .inr ⟨(Option.some.inj hc).symm, ho⟩⟩)))

theorem Line.freeEntry_eq_none {l : Line} (h : ∀ e, l.stations.get e ≠ some none) : l.freeEntry = none := by
  rw [freeEntry, Table.find_eq_none]
  rintro i (_ | x) hi
  · exact absurd hi (h i)
  · rfl

theorem Line.freeEntry_eq_some {l : Line} {e : Nat} (h : l.stations.get e = some none)
    (hlow : ∀ j < e, l.stations.get j ≠ some none) : l.freeEntry = some e := by
  rw [freeEntry, Table.find_eq_some]
  refine ⟨⟨none, h, rfl⟩, ?_⟩
  rintro j hj (_ | x) hx
  · exact absurd hx (hlow j hj)
  · rfl

/-- R201: entry `k` of the STATIONS data by the four numbers it holds. -/
theorem State.placeStation_eq {v before after : List Nat} {k address cls object stage : Nat}
    (hbefore : before.length = 4 * k + 1) (hv : v = before ++ [address, cls, object, stage] ++ after) (s : State) :
    State.placeStation v s k =
      if (enrolChecks s.line address cls object stage).any fun x => x.1 then s
      else match s.line.freeEntry, classOf cls with
        | some e, some c => s.enrol e address c object stage
        | _, _ => s := by
  obtain ⟨h1, h2, h3, h4⟩ := getD_four hbefore hv
  rw [placeStation, h1, h2, h3, h4] <;> rfl

theorem State.placeStation_of_barred {v before after : List Nat} {k address cls object stage : Nat}
    (hbefore : before.length = 4 * k + 1) (hv : v = before ++ [address, cls, object, stage] ++ after) {s : State}
    (h : (((enrolChecks s.line address cls object stage).any fun x => x.1) = true) ∨ s.line.freeEntry = none) :
    State.placeStation v s k = s := by
  rw [placeStation_eq hbefore hv]
  rcases h with h | h
  · exact if_pos h
  · rw [h]
    exact ite_self s

theorem State.placeStation_of_good {v before after : List Nat} {k address object stage : Nat} {c : StationClass}
    (hbefore : before.length = 4 * k + 1) (hv : v = before ++ [address, c.value, object, stage] ++ after) {s : State}
    {e : Nat} (h : ¬((enrolChecks s.line address c.value object stage).any fun x => x.1) = true)
    (hfree : s.line.freeEntry = some e) : State.placeStation v s k = s.enrol e address c object stage := by
  rw [placeStation_eq hbefore hv, if_neg h, hfree, c.classOf_value]

theorem State.enrol_eq (s : State) (e address : Nat) (c : StationClass) (object stage : Nat) :
    s.enrol e address c object stage =
      let u : State :=
        { s with
          line := { s.line with
            stations := s.line.stations.set e (some ⟨address, c, object, stage, .unknown, 0, none, none⟩) } }
      match c with
      | .set => { u with sets := s.sets.set object (some SetRecord.fresh) }
      | .meter => u.unreadStation object (some stage)
      | .bowser => u
      | .board => u := by
  cases c <;> rfl

theorem StationClass.value_of_classOf {cls : Nat} {c : StationClass} (h : classOf cls = some c) : cls = c.value := by
  by_cases hcls : 3 < cls
  · rw [classOf_eq_none hcls] at h
    cases h
  · obtain ⟨d, rfl⟩ := exists_class_value hcls
    rw [StationClass.classOf_value] at h
    rw [Option.some.inj h]

/-! ### An entry of the STAGES data -/

theorem State.inputAllowed_iff (s : State) (i : Nat) : s.inputAllowed i = true ↔ i = 255 ∨ s.set i ≠ none := by
  rw [inputAllowed, Bool.or_eq_true, beq_iff_eq, Option.isSome_iff_ne_none]

theorem inputSet_eq (i : Nat) : inputSet i = if i = 255 then none else some i := by
  simp [inputSet]

/-- R141: stage `k` of the STAGES data by the four numbers it holds. -/
theorem State.stagePlaced_eq {v before after : List Nat} {k a b auto dead : Nat} (hbefore : before.length = 4 * k)
    (hv : v = before ++ [a, b, auto, dead] ++ after) (s : State) (x : Stage) :
    s.stagePlaced v k x =
      if (a = 255 ∨ s.set a ≠ none) ∧ (b = 255 ∨ s.set b ≠ none) ∧ (a = b → a = 255) ∧ 1 ≤ dead ∧ dead ≤ 10 then
        { x with
          inputA := if a = 255 then none else some a
          inputB := if b = 255 then none else some b
          auto := auto.testBit 0
          deadTime := dead }
      else x := by
  obtain ⟨h1, h2, h3, h4⟩ := getD_four hbefore hv
  have hgood : (s.inputAllowed a && s.inputAllowed b && (a != b || a == 255) && decide (1 ≤ dead) &&
      decide (dead ≤ 10)) = true ↔
        (a = 255 ∨ s.set a ≠ none) ∧ (b = 255 ∨ s.set b ≠ none) ∧ (a = b → a = 255) ∧ 1 ≤ dead ∧ dead ≤ 10 := by
    have hdistinct : (a != b || a == 255) = true ↔ (a = b → a = 255) := by
      rw [Bool.or_eq_true, bne_iff_ne, beq_iff_eq]
      exact imp_iff_not_or.symm
    rw [Bool.and_eq_true, Bool.and_eq_true, Bool.and_eq_true, Bool.and_eq_true, inputAllowed_iff, inputAllowed_iff,
      hdistinct, decide_eq_true_eq, decide_eq_true_eq, and_assoc, and_assoc, and_assoc]
  rw [stagePlaced]
  simp only [h1, h2, h3, h4, inputSet_eq, bitOf_eq_testBit, hgood]

/-! ### IDENTIFY -/

theorem exec_identify {s : State} {p : Port} {tag : Byte} {progress : Nat}
    (h : (s.port p).inProgress = some ⟨⟨0x01, tag, []⟩, false⟩) :
    exec (.identify p progress) s = .next (deliver p (ownIdentify progress [] (s.judged p))).transmit := by
  have hjudge : judge p .identify s.loader.ready [] = .ok [] := by
    rw [judge_eq (.inr rfl), if_pos (by cases p <;> rfl)]
    rfl
  have hexec : exec (.identify p progress) s = ends (serve p .identify (ownIdentify progress) s) := rfl
  rw [hexec, serve, serveWhere_of_request h (by rfl), hjudge, ends]

theorem Loader.identity_eq (l : Loader) :
    l.identity =
      be 2 0x41B7 ++ be 2 460 ++ be 1 2 ++ be 2 l.site ++ be 1 (flag l.ready) ++ be 1 (flag l.lastSoft) ++
        l.report.cells.flatMap fun d => be 1 (match d with | .taken => 0 | .left => 1 | .bad => 2 | .absent => 3) := by
  rw [identity, reportBytes_eq]
  rfl

theorem ownIdentify_ready {s : State} (progress : Nat) (h : s.loader.ready = true) :
    ownIdentify progress [] s = done s s.loader.identity := by
  rw [ownIdentify, if_pos h]

theorem ownIdentify_loading {s : State} (progress : Nat) (h : s.loader.ready = false) :
    ownIdentify progress [] s =
      done (s.loadedUpTo (max progress s.loader.sectionsRead))
        (s.loadedUpTo (max progress s.loader.sectionsRead)).loader.identity := by
  rw [ownIdentify, if_neg (by simp [h])]

/-! ### PLAN LOADED -/

theorem exec_planLoaded (s : State) : exec .planLoaded s = .next (planLoaded s).finish.transmit := rfl

theorem planLoaded_of_loading {s : State} (h : s.loader.ready = false) :
    planLoaded s =
      (({ s.applySections s.planSections with
        loader := { (s.applySections s.planSections).loader with
          ready := true, report := reportFor s.planSections, sectionsRead := s.planSections.length } } : State).post .started
        (be 1 (flag s.loader.lastSoft) ++
          (reportFor s.planSections).cells.flatMap fun d =>
            be 1 (match d with | .taken => 0 | .left => 1 | .bad => 2 | .absent => 3))) := by
  have hsoft : (s.applySections s.planSections).loader.lastSoft = s.loader.lastSoft := by
    rw [State.applySections_frame]
  rw [planLoaded, if_neg (by simp [h])]
  dsimp only
  rw [State.postStarted, Loader.reportBytes_eq]
  exact congrArg (fun b => State.post _ .started (be 1 (flag b) ++ _)) hsoft

end Sys2Proof.Machine
end

section
/-! PROOFS. Loading and identification (12). -/

namespace Sys2Proof.Machine

theorem State.planSections_eq (s : State) :
    s.planSections =
      match imageLength ((List.range 5).map fun i => if s.planFitted then s.planMem.read (0 + i) else 0) with
      | some n => sectionsOf n ((List.range n).map fun i => if s.planFitted then s.planMem.read (5 + i) else 0)
      | none => [] := by
  rw [planSections, planBytes_eq, headerBytes]
  cases imageLength ((List.range 5).map fun i => if s.planFitted then s.planMem.read (0 + i) else 0) with
  | none => rfl
  | some n => exact congrArg (sectionsOf n) (s.planBytes_eq 5 n)

theorem reportFor_get_match (xs : List (List Byte)) {k : Nat} (hlow : 1 ≤ k) (hhigh : k ≤ 7) :
    (reportFor xs).get (k - 1) =
      some (match xs.find? fun x => (x.headD 0).toNat == k with | some x => decisionOf x | none => .absent) := by
  refine (reportFor_get xs hlow hhigh).trans (congrArg some ?_)
  change Option.elim (xs.find? fun x => (x.headD 0).toNat == k) .absent decisionOf = _
  cases xs.find? fun x => (x.headD 0).toNat == k <;> rfl

/-- R199: what PLAN LOADED does to the state. -/
theorem planLoaded_clause {s : State} (h : s.loader.ready = false) : ∃ u : State,
    u = (s.applySections s.planSections) ∧
      exec .planLoaded s =
        .next ((({ u with
          loader := { u.loader with
            ready := true
            report := reportFor s.planSections
            sectionsRead := s.planSections.length } } : State).post .started
              (be 1 (flag s.loader.lastSoft) ++
                (reportFor s.planSections).cells.flatMap fun d =>
                  be 1 (match d with | .taken => 0 | .left => 1 | .bad => 2 | .absent => 3))).finish).transmit ∧
      u.clock.state = s.clock.state ∧ u.clock.day = s.clock.day ∧ u.clock.second = s.clock.second ∧
      u.planMem = s.planMem ∧ u.tallyMem = s.tallyMem ∧ u.period = s.period ∧ u.deliveries = s.deliveries ∧
      u.yard = s.yard ∧ u.office = s.office := by
  refine ⟨_, rfl, congrArg (fun u : State => (.next u.finish.transmit : Result)) (planLoaded_of_loading h), ?_⟩
  rw [State.applySections_frame]
  cases takenData s.planSections 6 <;> exact ⟨rfl, rfl, rfl, rfl, rfl, rfl, rfl, rfl, rfl⟩

/-- R199 to R201: loading, clause by clause. -/
theorem planIsLoaded_clauses (s : State) (xs : List (List Byte)) :
    (∀ d, takenData xs 1 = some d → (s.applySections xs).loader.site = fromBe d) ∧
      (takenData xs 1 = none → (s.applySections xs).loader.site = 0) ∧
      (takenData xs 5 = none → (s.applySections xs).tally = s.tally) ∧
      (takenData xs 6 = none → (s.applySections xs).clock = s.clock) ∧
      (∀ b, takenData xs 5 = some [b] →
        (s.applySections xs).tally.bank0 = b.getLsbD 0 ∧ (s.applySections xs).tally.bank1 = b.getLsbD 1) ∧
      ∀ interval limit, interval < 65536 → limit < 4294967296 →
        takenData xs 6 = some (be 2 interval ++ be 4 limit) →
          (s.applySections xs).clock.interval =
              (if 60 ≤ interval ∧ interval ≤ 900 then interval else s.clock.interval) ∧
            (s.applySections xs).clock.limit =
              (if 1000 ≤ limit ∧ limit ≤ 4000000 then limit else s.clock.limit) := by
  rw [State.applySections_frame]
  refine ⟨fun d h => ?_, fun h => ?_, fun h => ?_, fun h => ?_, fun b h => ?_, fun interval limit hi hl h => ?_⟩
  · exact (siteFor_eq xs).trans (by rw [h])
  · exact (siteFor_eq xs).trans (by rw [h])
  · exact congrArg (Option.elim · s.tally s.tally.banked) h
  · exact congrArg (Option.elim · s.clock s.clock.swept) h
  · have htally : (takenData xs 5).elim s.tally s.tally.banked = s.tally.banked [b] := by rw [h] <;> rfl
    exact ⟨(congrArg Tally.bank0 htally).trans (bitOf_fromBe_one b 0),
      (congrArg Tally.bank1 htally).trans (bitOf_fromBe_one b 1)⟩
  · have hclock : (takenData xs 6).elim s.clock s.clock.swept = s.clock.swept (be 2 interval ++ be 4 limit) := by
      rw [h] <;> rfl
    rw [s.clock.swept_be hi hl] at hclock
    exact ⟨congrArg Clock.interval hclock, congrArg Clock.limit hclock⟩

theorem State.applyStations_eq (s : State) (bs : List Byte) :
    s.applyStations bs =
      (List.range (min (bs.headD 0).toNat ((bs.length - 1) / 4))).foldl (State.placeStation (numbers bs)) s := by
  have hhead : (numbers bs).headD 0 = (bs.headD 0).toNat := by cases bs <;> rfl
  have hlength : (numbers bs).length = bs.length := List.length_map ..
  simp only [applyStations, hhead, hlength, forEach]

/-- R201: an entry that fails a check, or finds no free entry, is passed over. -/
theorem State.placeStation_passed {v before after : List Nat} {k a cls o stage : Nat} {s : State}
    (hbefore : before.length = 4 * k + 1) (hv : v = before ++ [a, cls, o, stage] ++ after)
    (h : a = 0 ∨ 62 < a ∨ classOf cls = none ∨ (classOf cls = some .set ∧ 11 < o) ∨
      (classOf cls = some .bowser ∧ 2 < o) ∨ (classOf cls = some .board ∧ 7 < o) ∨
      (classOf cls = some .meter ∧ (11 < o ∨ 7 < stage)) ∨ (classOf cls ≠ some .meter ∧ stage ≠ 0) ∨
      (∃ e st, s.line.stations.get e = some (some st) ∧ (st.address = a ∨ (classOf cls = some st.cls ∧ st.object = o))) ∨
      (∀ e, s.line.stations.get e ≠ some none)) : State.placeStation v s k = s := by
  refine placeStation_of_barred hbefore hv ?_
  simp only [← or_assoc] at h
  exact h.imp (fun h => enrolChecks_any_of_barred (by simpa only [or_assoc] using h)) Line.freeEntry_eq_none

/-- R201: an entry that passes is enrolled in the lowest free entry. -/
theorem State.placeStation_enrolled {v before after : List Nat} {k a cls o stage e : Nat} {s : State} {c : StationClass}
    (hbefore : before.length = 4 * k + 1) (hv : v = before ++ [a, cls, o, stage] ++ after) (hc : classOf cls = some c)
    (hlow : a ≠ 0) (hhigh : a ≤ 62) (ho : o ≤ c.lastObject) (hstage : if c = .meter then stage ≤ 7 else stage = 0)
    (hnew : ∀ j st, s.line.stations.get j = some (some st) → st.address ≠ a ∧ ¬(st.cls = c ∧ st.object = o))
    (hfree : s.line.stations.get e = some none) (hlowest : ∀ j < e, s.line.stations.get j ≠ some none) :
    State.placeStation v s k = s.enrol e a c o stage := by
  obtain rfl := StationClass.value_of_classOf hc
  refine placeStation_of_good hbefore hv ?_ (Line.freeEntry_eq_some hfree hlowest)
  rw [enrolChecks_any_iff]
  rintro (h | h | h | h | ⟨j, st, hj, h⟩)
  · exact hlow h
  · omega
  · omega
  · by_cases hm : c = .meter
    · rw [if_pos hm] at h hstage
      omega
    · rw [if_neg hm] at h hstage
      exact h hstage
  · exact h.elim (hnew j st hj).1 (hnew j st hj).2

/-- R44, R96: what the tables hold once the image is applied. -/
theorem State.applySections_tables (s : State) (xs : List (List Byte)) :
    ((s.applySections xs).line = (s.afterStations xs).line ∧ (s.applySections xs).sets = (s.afterStations xs).sets ∧
        (s.applySections xs).billing = (s.afterStations xs).billing ∧
        (s.applySections xs).stages = (s.afterStages xs).stages) ∧
      (s.applySections xs).marks = marksAfter (takenData xs 4) s.marks ∧
      (s.applySections xs).windows = s.windows.after (takenData xs 7) := by
  rw [applySections_frame]
  exact ⟨⟨rfl, rfl, rfl, rfl⟩, rfl, rfl⟩

/-- Settles O48: the image by the walk over it, each section by what it makes of its table, IDENTIFY and PLAN LOADED by
their commands. -/
theorem planIsLoadedAndPartIdentified : Obligations.PlanIsLoadedAndPartIdentified := by
  refine ⟨⟨fun s h => planLoaded_clause h, fun s h => ?_, fun s => s.planSections_eq, fun xs kind data => takenData_eq_some,
    siteFor_eq, fun header h => imageLength_eq h, fun n kind accept data check more hdata hcheck => ?_,
    fun n bs h => sectionsOf_stop n h, fun kind accept data check hcheck => ?_,
    fun xs k hlow hhigh => reportFor_get_match xs hlow hhigh, fun s xs h => State.applySections_of_none h,
    planIsLoaded_clauses⟩, ⟨?_, fun s bs => ?_, ?_, ?_⟩, ?_⟩
  · rw [exec_planLoaded, planLoaded, if_pos h]
  · rw [← sectionBytes_append]
    exact sectionsOf_cons n hdata hcheck
  · refine (decisionOf_bytes hcheck).trans ?_
    rw [lengthAllowed_eq] <;> rfl
  · intro s xs stations stages
    have hstations : s.afterStations xs = stations := s.afterStations_eq xs
    have hstages : s.afterStages xs = stages := by
      rw [State.afterStages_eq, hstations] <;> rfl
    obtain ⟨⟨hline, hsets, hbilling, hstage⟩, hmarks, hwindows⟩ := s.applySections_tables xs
    rw [hstations] at hline hsets hbilling
    rw [hstages] at hstage
    refine ⟨⟨hline, hsets, hbilling, hstage⟩, fun i m hm => ?_, fun h => ?_, ?_⟩
    · rw [hmarks]
      exact marksAfter_get hm
    · rw [hwindows, h] <;> rfl
    · intro head tail k enabled base mask roles deny mode mark_ hhead _ hk henabled hbase hmask hroles hdeny hmode hmark h
      have hfit : ∀ x ∈ windowPayload 0 ⟨enabled, base, mask, roles, deny, mode, mark_⟩, x.2 < 256 ^ x.1 := by
        simp [windowPayload, *]
      refine ⟨fun hlow => ?_, fun hhigh => ?_⟩
      · rw [hwindows, h]
        refine (Windows.after_account hlow hhead hfit).trans ?_
        rw [WindowFields.account_eq]
      · rw [hwindows, h]
        refine (Windows.after_set hhigh hk hhead hfit).trans ?_
        rw [WindowFields.set_eq]
  · exact s.applyStations_eq bs
  · intro s v before after k address cls object stage hbefore hv class_
    refine ⟨fun h => State.placeStation_passed hbefore hv h,
      fun c e hc hlow hhigh ho hstage hnew hfree hlowest => ?_⟩
    have hobject : object ≤ c.lastObject := by cases c <;> exact ho
    exact (State.placeStation_enrolled hbefore hv hc hlow hhigh hobject hstage hnew hfree hlowest).trans
      (s.enrol_eq e address c object stage)
  · intro s v before after k a b auto dead x hbefore hv hk hx good
    have hplaced := State.stage_forEach_placeStage v s hk hx
    rw [s.stagePlaced_eq hbefore hv x] at hplaced
    exact ⟨fun hgood => hplaced.trans (congrArg some (if_pos hgood)),
      fun hbad => hplaced.trans (congrArg some (if_neg hbad))⟩
  · intro s p tag progress h t shown
    have hexec := exec_identify (progress := progress) h
    refine ⟨fun hready => ?_, fun hloading => ?_⟩
    · rw [hexec, ownIdentify_ready progress (by rw [State.judged_loader]; exact hready), deliver_done,
        Loader.identity_eq, State.judged_loader] <;> rfl
    · rw [hexec, ownIdentify_loading progress (by rw [State.judged_loader]; exact hloading), deliver_done,
        Loader.identity_eq]
      cases p <;> rfl

end Sys2Proof.Machine
end
